-- ==== Sys2Proof/Word.lean ====
section
/-! DEFINITION. Word.lean: the two widths of the core. A byte is a register or a memory location, a
word is the program counter, a data address or a two-byte operand (spec/00_scope.md R7, R9). -/

namespace Sys2Proof

/-- A byte: 0..255, bit 0 least significant (spec/00_scope.md R9). -/
abbrev Byte := BitVec 8

/-- A word: 0..65535 (spec/00_scope.md R9). -/
abbrev Word := BitVec 16

end Sys2Proof
end

