-- ==== Sys2Proof/Machine/Bits.lean ====
section
/-! DEFINITION. Bits.lean: the width functions and the byte order (spec/00_scope.md R10,
spec/20_memory.md R54, spec/30_encoding.md R77). -/

namespace Sys2Proof

/-- mask8 of spec/00_scope.md R10: an integer modulo 256. -/
def mask8 (v : Int) : Byte := BitVec.ofInt 8 v

/-- mask16 of spec/00_scope.md R10: an integer modulo 65536. -/
def mask16 (v : Int) : Word := BitVec.ofInt 16 v

/-- signed8 (and sext_8) of spec/00_scope.md R10. -/
def signed8 (b : Byte) : Int := if b.toNat < 128 then (b.toNat : Int) else (b.toNat : Int) - 256

/-- bit7 of spec/00_scope.md R10. -/
def bit7 (b : Byte) : Bool := b.getLsbD 7

/-- zext_8 of spec/00_scope.md R10, into a word. -/
def zext8 (b : Byte) : Word := b.setWidth 16

/-- Two bytes as a little-endian word: low byte first (spec/20_memory.md R54, spec/30_encoding.md R77). -/
def wordOf (lo hi : Byte) : Word := zext8 lo ||| (zext8 hi <<< 8)

/-- The byte a little-endian word holds first. -/
def lowByte (w : Word) : Byte := w.setWidth 8

/-- The byte a little-endian word holds second. -/
def highByte (w : Word) : Byte := (w >>> 8).setWidth 8

end Sys2Proof
end

