-- ==== Sys2Proof/Operand.lean ====
section
/-! DEFINITION. Operand.lean: the mode tags and the operand forms of an instruction
(spec/41_addressing.md R120 to R134), and the names of the instructions (spec/30_encoding.md R82). -/

namespace Sys2Proof

/-- The closed set of 16 addressing-mode tags (spec/41_addressing.md R120). The last three have no
opcode, no effective-address rule and no handler (R135). -/
inductive Mode where
  | imp | stk | acc | imm | zp | zpx | zpy | abs | absx | absy | zpxi | zpiy | rel
  | zpi | absi | absxi
  deriving DecidableEq, Repr

/-- The 50 mnemonics of the instruction set (spec/30_encoding.md R82). -/
inductive Mnemonic where
  | lda | ldx | ldy | sta | stx | sty
  | tax | tay | txa | tya | tsx | txs
  | adc | sbc | cmp | cpx | cpy
  | and | ora | eor | asl | lsr | rol | ror
  | inc | dec | inx | iny | dex | dey
  | pha | pla | php | plp
  | clc | sec | cli | sei | cld | sed | clv | nop
  | bcc | bcs | beq | bne | bmi | bpl | bvc | bvs
  deriving DecidableEq, Repr

/-- An operand of one of the eight modes with an effective address, with the raw operand of the
instruction stream (spec/41_addressing.md R126 to R133, R137; widths spec/30_encoding.md R79). -/
inductive MemOperand where
  | zp (o : Byte)
  | zpx (o : Byte)
  | zpy (o : Byte)
  | abs (o : Word)
  | absx (o : Word)
  | absy (o : Word)
  | zpxi (o : Byte)
  | zpiy (o : Byte)
  deriving DecidableEq, Repr

/-- The operand of a read instruction: an immediate or a memory operand
(spec/41_addressing.md R121, R125). -/
inductive ValueOperand where
  | imm (o : Byte)
  | mem (m : MemOperand)
  deriving DecidableEq, Repr

/-- The operand of a shift or rotate: the accumulator or a memory operand
(spec/41_addressing.md R124; spec/45_logic_shift_incdec.md section 2). -/
inductive ShiftOperand where
  | acc
  | mem (m : MemOperand)
  deriving DecidableEq, Repr

end Sys2Proof
end

