-- ==== Sys2Proof/Syntax.lean ====
section
/-! DEFINITION. Syntax.lean: the instructions. One constructor for the halt byte, one for each of the 50
mnemonics with its operand form as argument, one for each of the 112 unassigned opcode bytes
(spec/30_encoding.md R82, R83, R85, R86). Each of the 256 rows of spec/opcode_table.json is one
constructor with one operand form. -/

namespace Sys2Proof

/-- An instruction. Which operand forms a mnemonic admits is `Instr.wellFormed`. -/
inductive Instr where
  /-- Opcode byte 0x00 (spec/40_dispatch.md R107). -/
  | hlt
  -- loads, stores (spec/43_load_store_transfer.md R160 to R165)
  | lda (op : ValueOperand)
  | ldx (op : ValueOperand)
  | ldy (op : ValueOperand)
  | sta (m : MemOperand)
  | stx (m : MemOperand)
  | sty (m : MemOperand)
  -- register transfers (R166 to R171)
  | tax | tay | txa | tya | tsx | txs
  -- arithmetic, compare (spec/44_arithmetic_compare.md R180 to R184)
  | adc (op : ValueOperand)
  | sbc (op : ValueOperand)
  | cmp (op : ValueOperand)
  | cpx (op : ValueOperand)
  | cpy (op : ValueOperand)
  -- logic, shifts, increments (spec/45_logic_shift_incdec.md R190 to R202)
  | and (op : ValueOperand)
  | ora (op : ValueOperand)
  | eor (op : ValueOperand)
  | asl (t : ShiftOperand)
  | lsr (t : ShiftOperand)
  | rol (t : ShiftOperand)
  | ror (t : ShiftOperand)
  | inc (m : MemOperand)
  | dec (m : MemOperand)
  | inx | iny | dex | dey
  -- stack (spec/46_stack.md R212 to R215)
  | pha | pla | php | plp
  -- flag operations, NOP (spec/47_flags_nop.md R220 to R227)
  | clc | sec | cli | sei | cld | sed | clv | nop
  -- conditional branches, with the displacement byte (spec/48_branches.md R236 to R243)
  | bcc (d : Byte)
  | bcs (d : Byte)
  | beq (d : Byte)
  | bne (d : Byte)
  | bmi (d : Byte)
  | bpl (d : Byte)
  | bvc (d : Byte)
  | bvs (d : Byte)
  -- the 112 unassigned opcode bytes (spec/30_encoding.md R86, spec/47_flags_nop.md R228)
  | unassigned02 | unassigned03 | unassigned04 | unassigned07 | unassigned0B | unassigned0C | unassigned0F | unassigned12
  | unassigned13 | unassigned14 | unassigned17 | unassigned1A | unassigned1B | unassigned1C | unassigned1F | unassigned20
  | unassigned22 | unassigned23 | unassigned24 | unassigned27 | unassigned2B | unassigned2C | unassigned2F | unassigned32
  | unassigned33 | unassigned34 | unassigned37 | unassigned3A | unassigned3B | unassigned3C | unassigned3F | unassigned40
  | unassigned42 | unassigned43 | unassigned44 | unassigned47 | unassigned4B | unassigned4C | unassigned4F | unassigned52
  | unassigned53 | unassigned54 | unassigned57 | unassigned5A | unassigned5B | unassigned5C | unassigned5F | unassigned60
  | unassigned62 | unassigned63 | unassigned64 | unassigned67 | unassigned6B | unassigned6C | unassigned6F | unassigned72
  | unassigned73 | unassigned74 | unassigned77 | unassigned7A | unassigned7B | unassigned7C | unassigned7F | unassigned80
  | unassigned82 | unassigned83 | unassigned87 | unassigned89 | unassigned8B | unassigned8F | unassigned92 | unassigned93
  | unassigned97 | unassigned9B | unassigned9C | unassigned9E | unassigned9F | unassignedA3 | unassignedA7 | unassignedAB
  | unassignedAF | unassignedB2 | unassignedB3 | unassignedB7 | unassignedBB | unassignedBF | unassignedC2 | unassignedC3
  | unassignedC7 | unassignedCB | unassignedCF | unassignedD2 | unassignedD3 | unassignedD4 | unassignedD7 | unassignedDA
  | unassignedDB | unassignedDC | unassignedDF | unassignedE2 | unassignedE3 | unassignedE7 | unassignedEB | unassignedEF
  | unassignedF2 | unassignedF3 | unassignedF4 | unassignedF7 | unassignedFA | unassignedFB | unassignedFC | unassignedFF
  deriving DecidableEq, Repr

end Sys2Proof
end

