-- ==== Sys2Proof/Machine/Modes.lean ====
section
/-! DEFINITION. Modes.lean: which mode tags each mnemonic supports (spec/30_encoding.md R83), how many
operand bytes each tag has (R79), and what the opcode byte of an instruction stands for (R81). -/

namespace Sys2Proof

/-- The operand byte count n of a mode tag (spec/30_encoding.md R79; the three tags without an opcode
have the counts R79 gives them). -/
def Mode.operandBytes : Mode → Nat
  | .imp | .stk | .acc => 0
  | .imm | .zp | .zpx | .zpy | .zpxi | .zpiy | .rel | .zpi => 1
  | .abs | .absx | .absy | .absi | .absxi => 2

/-- The rows of the support table spec/30_encoding.md R83. -/
def Mnemonic.modes : Mnemonic → List Mode
  | .lda | .adc | .sbc | .and | .ora | .eor | .cmp =>
    [.imm, .zp, .zpx, .abs, .absx, .absy, .zpxi, .zpiy]
  | .sta => [.zp, .zpx, .abs, .absx, .absy, .zpxi, .zpiy]
  | .ldx => [.imm, .zp, .zpy, .abs, .absy]
  | .ldy => [.imm, .zp, .zpx, .abs, .absx]
  | .stx => [.zp, .zpy, .abs]
  | .sty => [.zp, .zpx, .abs]
  | .cpx | .cpy => [.imm, .zp, .abs]
  | .asl | .lsr | .rol | .ror => [.acc, .zp, .zpx, .abs, .absx]
  | .inc | .dec => [.zp, .zpx, .abs, .absx]
  | .tax | .tay | .txa | .tya | .tsx | .txs | .inx | .iny | .dex | .dey
  | .clc | .sec | .cli | .sei | .cld | .sed | .clv | .nop => [.imp]
  | .pha | .pla | .php | .plp => [.stk]
  | .bcc | .bcs | .beq | .bne | .bmi | .bpl | .bvc | .bvs => [.rel]

/-- Whether the pair (mnemonic, mode tag) is in spec/30_encoding.md R83. -/
def Mnemonic.supports (mn : Mnemonic) (m : Mode) : Bool := mn.modes.contains m

/-- The mode tag of a memory operand (spec/41_addressing.md R126 to R133). -/
def MemOperand.mode : MemOperand → Mode
  | .zp _ => .zp
  | .zpx _ => .zpx
  | .zpy _ => .zpy
  | .abs _ => .abs
  | .absx _ => .absx
  | .absy _ => .absy
  | .zpxi _ => .zpxi
  | .zpiy _ => .zpiy

/-- The mode tag of a read instruction's operand (spec/41_addressing.md R125). -/
def ValueOperand.mode : ValueOperand → Mode
  | .imm _ => .imm
  | .mem m => m.mode

/-- The mode tag of a shift's operand (spec/41_addressing.md R124). -/
def ShiftOperand.mode : ShiftOperand → Mode
  | .acc => .acc
  | .mem m => m.mode

/-- What an opcode byte selects: the range of OPCODE_MAP (spec/00_scope.md R8, spec/30_encoding.md R81). -/
inductive OpcodeEntry where
  | hlt
  | unassigned (byte : Byte)
  | pair (mn : Mnemonic) (m : Mode)
  deriving DecidableEq, Repr

/-- The entry of OPCODE_MAP an instruction belongs to. -/
def Instr.entry : Instr → OpcodeEntry
  | .hlt => .hlt
  | .lda op => .pair .lda op.mode
  | .ldx op => .pair .ldx op.mode
  | .ldy op => .pair .ldy op.mode
  | .sta m => .pair .sta m.mode
  | .stx m => .pair .stx m.mode
  | .sty m => .pair .sty m.mode
  | .tax => .pair .tax .imp
  | .tay => .pair .tay .imp
  | .txa => .pair .txa .imp
  | .tya => .pair .tya .imp
  | .tsx => .pair .tsx .imp
  | .txs => .pair .txs .imp
  | .adc op => .pair .adc op.mode
  | .sbc op => .pair .sbc op.mode
  | .cmp op => .pair .cmp op.mode
  | .cpx op => .pair .cpx op.mode
  | .cpy op => .pair .cpy op.mode
  | .and op => .pair .and op.mode
  | .ora op => .pair .ora op.mode
  | .eor op => .pair .eor op.mode
  | .asl t => .pair .asl t.mode
  | .lsr t => .pair .lsr t.mode
  | .rol t => .pair .rol t.mode
  | .ror t => .pair .ror t.mode
  | .inc m => .pair .inc m.mode
  | .dec m => .pair .dec m.mode
  | .inx => .pair .inx .imp
  | .iny => .pair .iny .imp
  | .dex => .pair .dex .imp
  | .dey => .pair .dey .imp
  | .pha => .pair .pha .stk
  | .pla => .pair .pla .stk
  | .php => .pair .php .stk
  | .plp => .pair .plp .stk
  | .clc => .pair .clc .imp
  | .sec => .pair .sec .imp
  | .cli => .pair .cli .imp
  | .sei => .pair .sei .imp
  | .cld => .pair .cld .imp
  | .sed => .pair .sed .imp
  | .clv => .pair .clv .imp
  | .nop => .pair .nop .imp
  | .bcc _ => .pair .bcc .rel
  | .bcs _ => .pair .bcs .rel
  | .beq _ => .pair .beq .rel
  | .bne _ => .pair .bne .rel
  | .bmi _ => .pair .bmi .rel
  | .bpl _ => .pair .bpl .rel
  | .bvc _ => .pair .bvc .rel
  | .bvs _ => .pair .bvs .rel
  | .unassigned02 => .unassigned 0x02
  | .unassigned03 => .unassigned 0x03
  | .unassigned04 => .unassigned 0x04
  | .unassigned07 => .unassigned 0x07
  | .unassigned0B => .unassigned 0x0B
  | .unassigned0C => .unassigned 0x0C
  | .unassigned0F => .unassigned 0x0F
  | .unassigned12 => .unassigned 0x12
  | .unassigned13 => .unassigned 0x13
  | .unassigned14 => .unassigned 0x14
  | .unassigned17 => .unassigned 0x17
  | .unassigned1A => .unassigned 0x1A
  | .unassigned1B => .unassigned 0x1B
  | .unassigned1C => .unassigned 0x1C
  | .unassigned1F => .unassigned 0x1F
  | .unassigned20 => .unassigned 0x20
  | .unassigned22 => .unassigned 0x22
  | .unassigned23 => .unassigned 0x23
  | .unassigned24 => .unassigned 0x24
  | .unassigned27 => .unassigned 0x27
  | .unassigned2B => .unassigned 0x2B
  | .unassigned2C => .unassigned 0x2C
  | .unassigned2F => .unassigned 0x2F
  | .unassigned32 => .unassigned 0x32
  | .unassigned33 => .unassigned 0x33
  | .unassigned34 => .unassigned 0x34
  | .unassigned37 => .unassigned 0x37
  | .unassigned3A => .unassigned 0x3A
  | .unassigned3B => .unassigned 0x3B
  | .unassigned3C => .unassigned 0x3C
  | .unassigned3F => .unassigned 0x3F
  | .unassigned40 => .unassigned 0x40
  | .unassigned42 => .unassigned 0x42
  | .unassigned43 => .unassigned 0x43
  | .unassigned44 => .unassigned 0x44
  | .unassigned47 => .unassigned 0x47
  | .unassigned4B => .unassigned 0x4B
  | .unassigned4C => .unassigned 0x4C
  | .unassigned4F => .unassigned 0x4F
  | .unassigned52 => .unassigned 0x52
  | .unassigned53 => .unassigned 0x53
  | .unassigned54 => .unassigned 0x54
  | .unassigned57 => .unassigned 0x57
  | .unassigned5A => .unassigned 0x5A
  | .unassigned5B => .unassigned 0x5B
  | .unassigned5C => .unassigned 0x5C
  | .unassigned5F => .unassigned 0x5F
  | .unassigned60 => .unassigned 0x60
  | .unassigned62 => .unassigned 0x62
  | .unassigned63 => .unassigned 0x63
  | .unassigned64 => .unassigned 0x64
  | .unassigned67 => .unassigned 0x67
  | .unassigned6B => .unassigned 0x6B
  | .unassigned6C => .unassigned 0x6C
  | .unassigned6F => .unassigned 0x6F
  | .unassigned72 => .unassigned 0x72
  | .unassigned73 => .unassigned 0x73
  | .unassigned74 => .unassigned 0x74
  | .unassigned77 => .unassigned 0x77
  | .unassigned7A => .unassigned 0x7A
  | .unassigned7B => .unassigned 0x7B
  | .unassigned7C => .unassigned 0x7C
  | .unassigned7F => .unassigned 0x7F
  | .unassigned80 => .unassigned 0x80
  | .unassigned82 => .unassigned 0x82
  | .unassigned83 => .unassigned 0x83
  | .unassigned87 => .unassigned 0x87
  | .unassigned89 => .unassigned 0x89
  | .unassigned8B => .unassigned 0x8B
  | .unassigned8F => .unassigned 0x8F
  | .unassigned92 => .unassigned 0x92
  | .unassigned93 => .unassigned 0x93
  | .unassigned97 => .unassigned 0x97
  | .unassigned9B => .unassigned 0x9B
  | .unassigned9C => .unassigned 0x9C
  | .unassigned9E => .unassigned 0x9E
  | .unassigned9F => .unassigned 0x9F
  | .unassignedA3 => .unassigned 0xA3
  | .unassignedA7 => .unassigned 0xA7
  | .unassignedAB => .unassigned 0xAB
  | .unassignedAF => .unassigned 0xAF
  | .unassignedB2 => .unassigned 0xB2
  | .unassignedB3 => .unassigned 0xB3
  | .unassignedB7 => .unassigned 0xB7
  | .unassignedBB => .unassigned 0xBB
  | .unassignedBF => .unassigned 0xBF
  | .unassignedC2 => .unassigned 0xC2
  | .unassignedC3 => .unassigned 0xC3
  | .unassignedC7 => .unassigned 0xC7
  | .unassignedCB => .unassigned 0xCB
  | .unassignedCF => .unassigned 0xCF
  | .unassignedD2 => .unassigned 0xD2
  | .unassignedD3 => .unassigned 0xD3
  | .unassignedD4 => .unassigned 0xD4
  | .unassignedD7 => .unassigned 0xD7
  | .unassignedDA => .unassigned 0xDA
  | .unassignedDB => .unassigned 0xDB
  | .unassignedDC => .unassigned 0xDC
  | .unassignedDF => .unassigned 0xDF
  | .unassignedE2 => .unassigned 0xE2
  | .unassignedE3 => .unassigned 0xE3
  | .unassignedE7 => .unassigned 0xE7
  | .unassignedEB => .unassigned 0xEB
  | .unassignedEF => .unassigned 0xEF
  | .unassignedF2 => .unassigned 0xF2
  | .unassignedF3 => .unassigned 0xF3
  | .unassignedF4 => .unassigned 0xF4
  | .unassignedF7 => .unassigned 0xF7
  | .unassignedFA => .unassigned 0xFA
  | .unassignedFB => .unassigned 0xFB
  | .unassignedFC => .unassigned 0xFC
  | .unassignedFF => .unassigned 0xFF

end Sys2Proof
end

