-- ==== Sys2Proof/WellFormed.lean ====
section
/-! DEFINITION. WellFormed.lean: the one check an instruction must pass: its operand form is one its
mnemonic supports (spec/30_encoding.md R83). The widths of operands are in their types (R79). -/

namespace Sys2Proof

/-- The instruction is HLT, an unassigned opcode, or one of the 143 pairs of spec/30_encoding.md R83. -/
def Instr.wellFormed (i : Instr) : Bool :=
  match i.entry with
  | .hlt => true
  | .unassigned _ => true
  | .pair mn m => mn.supports m

end Sys2Proof
end

