-- ==== Sys2Proof/Decode.lean ====
section
/-! DEFINITION. Decode.lean: the decoder of the instruction stream (spec/30_encoding.md R75 to R87,
spec/40_dispatch.md R101 to R103) and the encoder (the forward map R84). -/

namespace Sys2Proof

/-- An opcode byte's format and what is built from its operand bytes: F1, F2 and F3 of
spec/30_encoding.md R76. -/
inductive Shape where
  | one (i : Instr)
  | two (f : Byte → Instr)
  | three (f : Word → Instr)

/-- IMM: the operand byte is the value (spec/30_encoding.md R78). -/
def Shape.immediate (c : ValueOperand → Instr) : Shape := .two fun o => c (.imm o)

/-- A read instruction with a one-byte operand (spec/30_encoding.md R79). -/
def Shape.zeroPageRead (m : Byte → MemOperand) (c : ValueOperand → Instr) : Shape :=
  .two fun o => c (.mem (m o))

/-- A read instruction with a two-byte operand (spec/30_encoding.md R79). -/
def Shape.absoluteRead (m : Word → MemOperand) (c : ValueOperand → Instr) : Shape :=
  .three fun o => c (.mem (m o))

/-- A store, INC or DEC with a one-byte operand (spec/30_encoding.md R79). -/
def Shape.zeroPageStore (m : Byte → MemOperand) (c : MemOperand → Instr) : Shape :=
  .two fun o => c (m o)

/-- A store, INC or DEC with a two-byte operand (spec/30_encoding.md R79). -/
def Shape.absoluteStore (m : Word → MemOperand) (c : MemOperand → Instr) : Shape :=
  .three fun o => c (m o)

/-- A shift or rotate of memory with a one-byte operand (spec/30_encoding.md R79). -/
def Shape.zeroPageShift (m : Byte → MemOperand) (c : ShiftOperand → Instr) : Shape :=
  .two fun o => c (.mem (m o))

/-- A shift or rotate of memory with a two-byte operand (spec/30_encoding.md R79). -/
def Shape.absoluteShift (m : Word → MemOperand) (c : ShiftOperand → Instr) : Shape :=
  .three fun o => c (.mem (m o))

/-- The operand byte count n of a shape (spec/30_encoding.md R75). -/
def Shape.operandBytes : Shape → Nat
  | .one _ => 0
  | .two _ => 1
  | .three _ => 2

/-- The instruction of a shape with an operand given as one number (spec/30_encoding.md R77). -/
def Shape.build : Shape → Word → Instr
  | .one i, _ => i
  | .two f, o => f (lowByte o)
  | .three f, o => f o

/-- Opcodes 00 to 0F (spec/30_encoding.md R87). -/
def opcodeRow0 : List Shape := [
  .one .hlt, .zeroPageRead .zpxi .ora, .one .unassigned02, .one .unassigned03,
  .one .unassigned04, .zeroPageRead .zp .ora, .zeroPageShift .zp .asl, .one .unassigned07,
  .one .php, .immediate .ora, .one (.asl .acc), .one .unassigned0B,
  .one .unassigned0C, .absoluteRead .abs .ora, .absoluteShift .abs .asl, .one .unassigned0F]

/-- Opcodes 10 to 1F (spec/30_encoding.md R87). -/
def opcodeRow1 : List Shape := [
  .two .bpl, .zeroPageRead .zpiy .ora, .one .unassigned12, .one .unassigned13,
  .one .unassigned14, .zeroPageRead .zpx .ora, .zeroPageShift .zpx .asl, .one .unassigned17,
  .one .clc, .absoluteRead .absy .ora, .one .unassigned1A, .one .unassigned1B,
  .one .unassigned1C, .absoluteRead .absx .ora, .absoluteShift .absx .asl, .one .unassigned1F]

/-- Opcodes 20 to 2F (spec/30_encoding.md R87). -/
def opcodeRow2 : List Shape := [
  .one .unassigned20, .zeroPageRead .zpxi .and, .one .unassigned22, .one .unassigned23,
  .one .unassigned24, .zeroPageRead .zp .and, .zeroPageShift .zp .rol, .one .unassigned27,
  .one .plp, .immediate .and, .one (.rol .acc), .one .unassigned2B,
  .one .unassigned2C, .absoluteRead .abs .and, .absoluteShift .abs .rol, .one .unassigned2F]

/-- Opcodes 30 to 3F (spec/30_encoding.md R87). -/
def opcodeRow3 : List Shape := [
  .two .bmi, .zeroPageRead .zpiy .and, .one .unassigned32, .one .unassigned33,
  .one .unassigned34, .zeroPageRead .zpx .and, .zeroPageShift .zpx .rol, .one .unassigned37,
  .one .sec, .absoluteRead .absy .and, .one .unassigned3A, .one .unassigned3B,
  .one .unassigned3C, .absoluteRead .absx .and, .absoluteShift .absx .rol, .one .unassigned3F]

/-- Opcodes 40 to 4F (spec/30_encoding.md R87). -/
def opcodeRow4 : List Shape := [
  .one .unassigned40, .zeroPageRead .zpxi .eor, .one .unassigned42, .one .unassigned43,
  .one .unassigned44, .zeroPageRead .zp .eor, .zeroPageShift .zp .lsr, .one .unassigned47,
  .one .pha, .immediate .eor, .one (.lsr .acc), .one .unassigned4B,
  .one .unassigned4C, .absoluteRead .abs .eor, .absoluteShift .abs .lsr, .one .unassigned4F]

/-- Opcodes 50 to 5F (spec/30_encoding.md R87). -/
def opcodeRow5 : List Shape := [
  .two .bvc, .zeroPageRead .zpiy .eor, .one .unassigned52, .one .unassigned53,
  .one .unassigned54, .zeroPageRead .zpx .eor, .zeroPageShift .zpx .lsr, .one .unassigned57,
  .one .cli, .absoluteRead .absy .eor, .one .unassigned5A, .one .unassigned5B,
  .one .unassigned5C, .absoluteRead .absx .eor, .absoluteShift .absx .lsr, .one .unassigned5F]

/-- Opcodes 60 to 6F (spec/30_encoding.md R87). -/
def opcodeRow6 : List Shape := [
  .one .unassigned60, .zeroPageRead .zpxi .adc, .one .unassigned62, .one .unassigned63,
  .one .unassigned64, .zeroPageRead .zp .adc, .zeroPageShift .zp .ror, .one .unassigned67,
  .one .pla, .immediate .adc, .one (.ror .acc), .one .unassigned6B,
  .one .unassigned6C, .absoluteRead .abs .adc, .absoluteShift .abs .ror, .one .unassigned6F]

/-- Opcodes 70 to 7F (spec/30_encoding.md R87). -/
def opcodeRow7 : List Shape := [
  .two .bvs, .zeroPageRead .zpiy .adc, .one .unassigned72, .one .unassigned73,
  .one .unassigned74, .zeroPageRead .zpx .adc, .zeroPageShift .zpx .ror, .one .unassigned77,
  .one .sei, .absoluteRead .absy .adc, .one .unassigned7A, .one .unassigned7B,
  .one .unassigned7C, .absoluteRead .absx .adc, .absoluteShift .absx .ror, .one .unassigned7F]

/-- Opcodes 80 to 8F (spec/30_encoding.md R87). -/
def opcodeRow8 : List Shape := [
  .one .unassigned80, .zeroPageStore .zpxi .sta, .one .unassigned82, .one .unassigned83,
  .zeroPageStore .zp .sty, .zeroPageStore .zp .sta, .zeroPageStore .zp .stx, .one .unassigned87,
  .one .dey, .one .unassigned89, .one .txa, .one .unassigned8B,
  .absoluteStore .abs .sty, .absoluteStore .abs .sta, .absoluteStore .abs .stx, .one .unassigned8F]

/-- Opcodes 90 to 9F (spec/30_encoding.md R87). -/
def opcodeRow9 : List Shape := [
  .two .bcc, .zeroPageStore .zpiy .sta, .one .unassigned92, .one .unassigned93,
  .zeroPageStore .zpx .sty, .zeroPageStore .zpx .sta, .zeroPageStore .zpy .stx, .one .unassigned97,
  .one .tya, .absoluteStore .absy .sta, .one .txs, .one .unassigned9B,
  .one .unassigned9C, .absoluteStore .absx .sta, .one .unassigned9E, .one .unassigned9F]

/-- Opcodes A0 to AF (spec/30_encoding.md R87). -/
def opcodeRowA : List Shape := [
  .immediate .ldy, .zeroPageRead .zpxi .lda, .immediate .ldx, .one .unassignedA3,
  .zeroPageRead .zp .ldy, .zeroPageRead .zp .lda, .zeroPageRead .zp .ldx, .one .unassignedA7,
  .one .tay, .immediate .lda, .one .tax, .one .unassignedAB,
  .absoluteRead .abs .ldy, .absoluteRead .abs .lda, .absoluteRead .abs .ldx, .one .unassignedAF]

/-- Opcodes B0 to BF (spec/30_encoding.md R87). -/
def opcodeRowB : List Shape := [
  .two .bcs, .zeroPageRead .zpiy .lda, .one .unassignedB2, .one .unassignedB3,
  .zeroPageRead .zpx .ldy, .zeroPageRead .zpx .lda, .zeroPageRead .zpy .ldx, .one .unassignedB7,
  .one .clv, .absoluteRead .absy .lda, .one .tsx, .one .unassignedBB,
  .absoluteRead .absx .ldy, .absoluteRead .absx .lda, .absoluteRead .absy .ldx, .one .unassignedBF]

/-- Opcodes C0 to CF (spec/30_encoding.md R87). -/
def opcodeRowC : List Shape := [
  .immediate .cpy, .zeroPageRead .zpxi .cmp, .one .unassignedC2, .one .unassignedC3,
  .zeroPageRead .zp .cpy, .zeroPageRead .zp .cmp, .zeroPageStore .zp .dec, .one .unassignedC7,
  .one .iny, .immediate .cmp, .one .dex, .one .unassignedCB,
  .absoluteRead .abs .cpy, .absoluteRead .abs .cmp, .absoluteStore .abs .dec, .one .unassignedCF]

/-- Opcodes D0 to DF (spec/30_encoding.md R87). -/
def opcodeRowD : List Shape := [
  .two .bne, .zeroPageRead .zpiy .cmp, .one .unassignedD2, .one .unassignedD3,
  .one .unassignedD4, .zeroPageRead .zpx .cmp, .zeroPageStore .zpx .dec, .one .unassignedD7,
  .one .cld, .absoluteRead .absy .cmp, .one .unassignedDA, .one .unassignedDB,
  .one .unassignedDC, .absoluteRead .absx .cmp, .absoluteStore .absx .dec, .one .unassignedDF]

/-- Opcodes E0 to EF (spec/30_encoding.md R87). -/
def opcodeRowE : List Shape := [
  .immediate .cpx, .zeroPageRead .zpxi .sbc, .one .unassignedE2, .one .unassignedE3,
  .zeroPageRead .zp .cpx, .zeroPageRead .zp .sbc, .zeroPageStore .zp .inc, .one .unassignedE7,
  .one .inx, .immediate .sbc, .one .nop, .one .unassignedEB,
  .absoluteRead .abs .cpx, .absoluteRead .abs .sbc, .absoluteStore .abs .inc, .one .unassignedEF]

/-- Opcodes F0 to FF (spec/30_encoding.md R87). -/
def opcodeRowF : List Shape := [
  .two .beq, .zeroPageRead .zpiy .sbc, .one .unassignedF2, .one .unassignedF3,
  .one .unassignedF4, .zeroPageRead .zpx .sbc, .zeroPageStore .zpx .inc, .one .unassignedF7,
  .one .sed, .absoluteRead .absy .sbc, .one .unassignedFA, .one .unassignedFB,
  .one .unassignedFC, .absoluteRead .absx .sbc, .absoluteStore .absx .inc, .one .unassignedFF]

/-- OPCODE_MAP as the 16 x 16 grid of spec/30_encoding.md R87. -/
def opcodeTable : List Shape :=
  opcodeRow0 ++ opcodeRow1 ++ opcodeRow2 ++ opcodeRow3
    ++ opcodeRow4 ++ opcodeRow5 ++ opcodeRow6 ++ opcodeRow7
    ++ opcodeRow8 ++ opcodeRow9 ++ opcodeRowA ++ opcodeRowB
    ++ opcodeRowC ++ opcodeRowD ++ opcodeRowE ++ opcodeRowF

/-- The map is total for all 256 byte values (spec/30_encoding.md R81). -/
theorem opcodeTable_length : opcodeTable.length = 256 := by
  simp only [opcodeTable, List.length_append]
  rfl

/-- The lookup OPCODE_MAP(op) (spec/40_dispatch.md R102): the opcode byte is looked up whole
(spec/30_encoding.md R76). -/
def opcodeShape (op : Byte) : Shape :=
  opcodeTable[op.toNat]'(opcodeTable_length ▸ op.isLt)

/-- Why a decode rejects: there is no byte (spec/40_dispatch.md R101), or the operand bytes are not
all there (R103). Every opcode byte itself decodes (spec/30_encoding.md R81, R88). -/
inductive DecodeError where
  | endOfStream
  | truncated
  deriving DecidableEq, Repr

/-- Reads one instruction from the front of a byte stream and gives the rest of the stream
(spec/30_encoding.md R75 to R79, spec/40_dispatch.md R101 to R103). -/
def decode : List Byte → Except DecodeError (Instr × List Byte)
  | [] => .error .endOfStream
  | op :: rest =>
    match opcodeShape op with
    | .one i => .ok (i, rest)
    | .two f =>
      match rest with
      | b :: rest' => .ok (f b, rest')
      | [] => .error .truncated
    | .three f =>
      match rest with
      | lo :: hi :: rest' => .ok (f (wordOf lo hi), rest')
      | _ => .error .truncated

/-- The three bytes, low first, of a number whose bit 0 is bit 0 of the first byte. -/
def tableBytes (w : Nat) : List Byte :=
  [BitVec.ofNat 8 w, BitVec.ofNat 8 (w / 256), BitVec.ofNat 8 (w / 65536)]

/-- The instruction the decoder reads from the opcode table's numbering of its bits: nbits bits of w,
every bit above them 0. -/
def decodeTableWord (nbits w : Nat) : Option Instr :=
  match decode (tableBytes (w % 2 ^ nbits)) with
  | .ok (i, _) => some i
  | .error _ => none

/-- A row of the first table of spec/30_encoding.md R84, its columns in the table's order. -/
def opcodeRow (m : Mode) (imm zp zpx zpy abs absx absy zpxi zpiy : Option Byte) : Option Byte :=
  match m with
  | .imm => imm
  | .zp => zp
  | .zpx => zpx
  | .zpy => zpy
  | .abs => abs
  | .absx => absx
  | .absy => absy
  | .zpxi => zpxi
  | .zpiy => zpiy
  | .imp | .stk | .acc | .rel | .zpi | .absi | .absxi => none

/-- A row of the second table of spec/30_encoding.md R84: shifts and rotates. -/
def shiftRow (m : Mode) (acc zp zpx abs absx : Byte) : Option Byte :=
  match m with
  | .acc => some acc
  | .zp => some zp
  | .zpx => some zpx
  | .abs => some abs
  | .absx => some absx
  | .imp | .stk | .imm | .zpy | .absy | .zpxi | .zpiy | .rel | .zpi | .absi | .absxi => none

/-- An entry of the third table of spec/30_encoding.md R84: a mnemonic with one mode. -/
def soleMode (m only : Mode) (code : Byte) : Option Byte := if m = only then some code else none

/-- The forward map of spec/30_encoding.md R81: (mnemonic, mode tag) to opcode byte, as the three
tables of R84 give it; none where the pair has no opcode. -/
def opcodeOf (mn : Mnemonic) (m : Mode) : Option Byte :=
  match mn with
  | .ora => opcodeRow m (some 0x09) (some 0x05) (some 0x15) none (some 0x0D) (some 0x1D) (some 0x19) (some 0x01) (some 0x11)
  | .and => opcodeRow m (some 0x29) (some 0x25) (some 0x35) none (some 0x2D) (some 0x3D) (some 0x39) (some 0x21) (some 0x31)
  | .eor => opcodeRow m (some 0x49) (some 0x45) (some 0x55) none (some 0x4D) (some 0x5D) (some 0x59) (some 0x41) (some 0x51)
  | .adc => opcodeRow m (some 0x69) (some 0x65) (some 0x75) none (some 0x6D) (some 0x7D) (some 0x79) (some 0x61) (some 0x71)
  | .sta => opcodeRow m none (some 0x85) (some 0x95) none (some 0x8D) (some 0x9D) (some 0x99) (some 0x81) (some 0x91)
  | .lda => opcodeRow m (some 0xA9) (some 0xA5) (some 0xB5) none (some 0xAD) (some 0xBD) (some 0xB9) (some 0xA1) (some 0xB1)
  | .cmp => opcodeRow m (some 0xC9) (some 0xC5) (some 0xD5) none (some 0xCD) (some 0xDD) (some 0xD9) (some 0xC1) (some 0xD1)
  | .sbc => opcodeRow m (some 0xE9) (some 0xE5) (some 0xF5) none (some 0xED) (some 0xFD) (some 0xF9) (some 0xE1) (some 0xF1)
  | .ldx => opcodeRow m (some 0xA2) (some 0xA6) none (some 0xB6) (some 0xAE) none (some 0xBE) none none
  | .ldy => opcodeRow m (some 0xA0) (some 0xA4) (some 0xB4) none (some 0xAC) (some 0xBC) none none none
  | .stx => opcodeRow m none (some 0x86) none (some 0x96) (some 0x8E) none none none none
  | .sty => opcodeRow m none (some 0x84) (some 0x94) none (some 0x8C) none none none none
  | .cpx => opcodeRow m (some 0xE0) (some 0xE4) none none (some 0xEC) none none none none
  | .cpy => opcodeRow m (some 0xC0) (some 0xC4) none none (some 0xCC) none none none none
  | .inc => opcodeRow m none (some 0xE6) (some 0xF6) none (some 0xEE) (some 0xFE) none none none
  | .dec => opcodeRow m none (some 0xC6) (some 0xD6) none (some 0xCE) (some 0xDE) none none none
  | .asl => shiftRow m 0x0A 0x06 0x16 0x0E 0x1E
  | .rol => shiftRow m 0x2A 0x26 0x36 0x2E 0x3E
  | .lsr => shiftRow m 0x4A 0x46 0x56 0x4E 0x5E
  | .ror => shiftRow m 0x6A 0x66 0x76 0x6E 0x7E
  | .clc => soleMode m .imp 0x18
  | .sec => soleMode m .imp 0x38
  | .cli => soleMode m .imp 0x58
  | .sei => soleMode m .imp 0x78
  | .clv => soleMode m .imp 0xB8
  | .cld => soleMode m .imp 0xD8
  | .sed => soleMode m .imp 0xF8
  | .tax => soleMode m .imp 0xAA
  | .tay => soleMode m .imp 0xA8
  | .txa => soleMode m .imp 0x8A
  | .tya => soleMode m .imp 0x98
  | .tsx => soleMode m .imp 0xBA
  | .txs => soleMode m .imp 0x9A
  | .inx => soleMode m .imp 0xE8
  | .iny => soleMode m .imp 0xC8
  | .dex => soleMode m .imp 0xCA
  | .dey => soleMode m .imp 0x88
  | .nop => soleMode m .imp 0xEA
  | .php => soleMode m .stk 0x08
  | .plp => soleMode m .stk 0x28
  | .pha => soleMode m .stk 0x48
  | .pla => soleMode m .stk 0x68
  | .bpl => soleMode m .rel 0x10
  | .bmi => soleMode m .rel 0x30
  | .bvc => soleMode m .rel 0x50
  | .bvs => soleMode m .rel 0x70
  | .bcc => soleMode m .rel 0x90
  | .bcs => soleMode m .rel 0xB0
  | .bne => soleMode m .rel 0xD0
  | .beq => soleMode m .rel 0xF0

/-- The opcode byte of an entry of the map: HLT is 0x00 (spec/30_encoding.md R85), an unassigned opcode
is its own byte (R86). -/
def OpcodeEntry.opcode : OpcodeEntry → Option Byte
  | .hlt => some 0x00
  | .unassigned b => some b
  | .pair mn m => opcodeOf mn m

/-- The operand bytes of a memory operand, low byte first (spec/30_encoding.md R77, R94). -/
def MemOperand.bytes : MemOperand → List Byte
  | .zp o | .zpx o | .zpy o | .zpxi o | .zpiy o => [o]
  | .abs o | .absx o | .absy o => [lowByte o, highByte o]

/-- The operand bytes of a read instruction's operand (spec/30_encoding.md R77, R94). -/
def ValueOperand.bytes : ValueOperand → List Byte
  | .imm o => [o]
  | .mem m => m.bytes

/-- The operand bytes of a shift's operand (spec/30_encoding.md R77, R94). -/
def ShiftOperand.bytes : ShiftOperand → List Byte
  | .acc => []
  | .mem m => m.bytes

/-- The operand bytes that follow the opcode byte (spec/30_encoding.md R77, R94). Implied and stack
forms, HLT and the unassigned opcodes have none (R76). -/
def Instr.operandBytes : Instr → List Byte
  | .lda op | .ldx op | .ldy op | .adc op | .sbc op | .cmp op | .cpx op | .cpy op
  | .and op | .ora op | .eor op => op.bytes
  | .sta m | .stx m | .sty m | .inc m | .dec m => m.bytes
  | .asl t | .lsr t | .rol t | .ror t => t.bytes
  | .bcc d | .bcs d | .beq d | .bne d | .bmi d | .bpl d | .bvc d | .bvs d => [d]
  | _ => []

/-- The length 1 + n of an instruction (spec/30_encoding.md R75, R79). -/
def Instr.length (i : Instr) : Nat :=
  match i.entry with
  | .hlt => 1
  | .unassigned _ => 1
  | .pair _ m => 1 + m.operandBytes

/-- The bytes of an instruction: opcode, then operand, little-endian (spec/30_encoding.md R76, R94);
none for a pair that has no opcode (R81). -/
def encode (i : Instr) : Option (List Byte) :=
  i.entry.opcode.map (· :: i.operandBytes)

end Sys2Proof
end

