-- ==== Sys2Proof/Machine/Flags.lean ====
section
/-! DEFINITION. Flags.lean: the bits of the status register and the ALU (spec/10_state.md R28,
spec/42_alu.md R140 to R151). Every function is pure: bytes and flag bits in, bytes and flag bits out. -/

namespace Sys2Proof.Machine

/-- The eight bits of P (spec/10_state.md R28). -/
inductive Flag where
  | c | z | i | d | b | u | v | n
  deriving DecidableEq, Repr

/-- The bit number of a flag in P (spec/10_state.md R28). -/
def Flag.bit : Flag → Nat
  | .c => 0
  | .z => 1
  | .i => 2
  | .d => 3
  | .b => 4
  | .u => 5
  | .v => 6
  | .n => 7

/-- The mask column of spec/10_state.md R28. -/
def Flag.mask : Flag → Byte
  | .c => 0x01
  | .z => 0x02
  | .i => 0x04
  | .d => 0x08
  | .b => 0x10
  | .u => 0x20
  | .v => 0x40
  | .n => 0x80

/-- One bit of P (spec/00_scope.md R11). -/
def getFlag (p : Byte) (f : Flag) : Bool := p.getLsbD f.bit

/-- P with one bit written and the others left (spec/00_scope.md R11). -/
def putFlag (p : Byte) (f : Flag) (v : Bool) : Byte :=
  if v then p ||| f.mask else p &&& (f.mask ^^^ 0xFF)

/-- SetZN of spec/42_alu.md R141 on P: Z from r = 0, N from bit 7 of r. -/
def setZN (p r : Byte) : Byte := putFlag (putFlag p .z (r == 0)) .n (bit7 r)

/-- The result of ADD8 and SUB8: the byte r, the carry c' and the overflow v' (spec/42_alu.md R143, R144). -/
structure AluOut where
  result : Byte
  carry : Bool
  overflow : Bool
  deriving DecidableEq, Repr

/-- sgn of spec/42_alu.md R145. -/
def sgn (b : Byte) : Bool := bit7 b

/-- OVF, the same-sign heuristic of spec/42_alu.md R146: the inputs as fetched, the masked result. -/
def ovf (a m r : Byte) : Bool := sgn a == sgn m && sgn r != sgn a

/-- ADD8 of spec/42_alu.md R143; the D flag plays no part (R147). -/
def add8 (a m : Byte) (c : Bool) : AluOut :=
  let t : Int := a.toNat + m.toNat + c.toNat
  let r := mask8 t
  { result := r, carry := decide (t > 255), overflow := ovf a m r }

/-- SUB8 of spec/42_alu.md R144: unsigned bytes, an integer difference that may be negative, carry
when there is no borrow; the D flag plays no part (R147). -/
def sub8 (a m : Byte) (c : Bool) : AluOut :=
  let t : Int := a.toNat - m.toNat - (1 - c.toNat)
  let r := mask8 t
  { result := r, carry := decide (t ≥ 0), overflow := ovf a m r }

/-- The result of CMP8: c', z' and the n' that only `CMP_N_POLICY` = diff_bit7 uses (spec/42_alu.md R148). -/
structure CmpOut where
  carry : Bool
  zero : Bool
  negative : Bool
  deriving DecidableEq, Repr

/-- CMP8 of spec/42_alu.md R148: a SIGNED comparison. -/
def cmp8 (reg m : Byte) : CmpOut where
  carry := decide (signed8 reg ≥ signed8 m)
  zero := decide (signed8 reg = signed8 m)
  negative := bit7 (mask8 (reg.toNat - m.toNat))

/-- The result of a shift: the byte and the carry out (spec/42_alu.md R149). -/
structure ShiftOut where
  result : Byte
  carry : Bool
  deriving DecidableEq, Repr

/-- ASL8 of spec/42_alu.md R149; the carry in is not used. -/
def asl8 (v : Byte) (_ : Bool) : ShiftOut where
  result := v <<< 1
  carry := v.getLsbD 7

/-- LSR8 of spec/42_alu.md R149; the carry in is not used. -/
def lsr8 (v : Byte) (_ : Bool) : ShiftOut where
  result := v >>> 1
  carry := v.getLsbD 0

/-- ROL8 of spec/42_alu.md R149. -/
def rol8 (v : Byte) (c : Bool) : ShiftOut where
  result := (v <<< 1) ||| (if c then 0x01 else 0x00)
  carry := v.getLsbD 7

/-- ROR8 of spec/42_alu.md R149. -/
def ror8 (v : Byte) (c : Bool) : ShiftOut where
  result := (v >>> 1) ||| (if c then 0x80 else 0x00)
  carry := v.getLsbD 0

/-- AND8 of spec/42_alu.md R150. -/
def and8 (a m : Byte) : Byte := a &&& m

/-- ORA8 of spec/42_alu.md R150. -/
def ora8 (a m : Byte) : Byte := a ||| m

/-- EOR8 of spec/42_alu.md R150. -/
def eor8 (a m : Byte) : Byte := a ^^^ m

/-- INC8 of spec/42_alu.md R151. -/
def inc8 (v : Byte) : Byte := mask8 (v.toNat + 1)

/-- DEC8 of spec/42_alu.md R151. -/
def dec8 (v : Byte) : Byte := mask8 (v.toNat - 1)

end Sys2Proof.Machine
end

