-- ==== Sys2Proof/Config.lean ====
section
/-! DEFINITION. Config.lean: the named parameters of spec/00_scope.md R8 with the defaults R8 gives.
The two parameters that are not here: ROM is a field of the machine's state (log entry 3), OPCODE_MAP
is the table of Sys2Proof/Decode.lean (log entry 5). -/

namespace Sys2Proof

/-- What an opcode outside the instruction set does (spec/00_scope.md R8, UNASSIGNED_POLICY). -/
inductive UnassignedPolicy where
  | nop1
  | refuse
  deriving DecidableEq, Repr

/-- Whether a compare writes the N flag (spec/00_scope.md R8, CMP_N_POLICY). -/
inductive CmpNPolicy where
  | unchanged
  | diffBit7
  deriving DecidableEq, Repr

/-- The parameters of the step relation (spec/00_scope.md R8, spec/10_state.md R41). -/
structure Params where
  unassignedPolicy : UnassignedPolicy
  cmpNPolicy : CmpNPolicy
  phpOrMask : Byte
  plpKeepMask : Byte
  zpPtrWrap : Bool
  resetA : Byte
  resetX : Byte
  resetY : Byte
  resetS : Byte
  deriving DecidableEq, Repr

/-- The defaults of spec/00_scope.md R8. The four reset values are open in the spec; these are its
simulation defaults (DESIGN CHOICE, log entry 1). -/
def Params.default : Params where
  unassignedPolicy := .nop1
  cmpNPolicy := .unchanged
  phpOrMask := 0x00
  plpKeepMask := 0x00
  zpPtrWrap := false
  resetA := 0x00
  resetX := 0x00
  resetY := 0x00
  resetS := 0xFF

end Sys2Proof
end

