-- ==== Sys2Proof/Machine/State.lean ====
section
/-! DEFINITION. State.lean: the state of the core (spec/10_state.md R20 to R40), the reasons a step
stops, and the state after reset (spec/70_reset_and_hazards.md R270). -/

namespace Sys2Proof.Machine

/-- The reasons of HALTED (spec/10_state.md R36): the 0x00 opcode was fetched, or the program counter
reached or passed the end of the instruction stream. -/
inductive HaltReason where
  | hlt
  | endOfRom
  deriving DecidableEq, Repr

/-- The reasons of FAULTED, the closed list of spec/60_exceptions.md R254. -/
inductive FaultReason where
  | truncatedInstruction
  | unassignedOpcode
  deriving DecidableEq, Repr

/-- The hidden run state (spec/10_state.md R36). -/
inductive RunState where
  | running
  | halted (r : HaltReason)
  | faulted (r : FaultReason)
  deriving DecidableEq, Repr

/-- Why a step does not exist. -/
inductive Fault where
  /-- A step is requested of a core whose run state is HALTED or FAULTED. Raised by `step` alone. Safe:
  the spec defines no step there (spec/40_dispatch.md R100, R106;
  spec/93_implementation_defined.md U16; log entry 4). -/
  | runEnded
  deriving DecidableEq, Repr

/-- Why an instruction or a request is turned away, with no state change (spec/40_dispatch.md R110). -/
inductive Refusal where
  /-- The instruction has no meaning in this model. No arm of `exec` answers so. Safe. -/
  | notModelled (mnemonic : String)
  /-- The mnemonic token is none of the 50. Raised by the direct-dispatch port
  (spec/40_dispatch.md R109). Safe. -/
  | unknownMnemonic
  /-- The pair (mnemonic, mode tag) has no opcode and no handler. Raised by the direct-dispatch port
  (spec/40_dispatch.md R109) and by the meaning of an instruction that is not well formed, which no
  decoding gives (log entry 6). Safe. -/
  | unsupportedCombination
  /-- A request without an operand where the mode has one (spec/40_dispatch.md R109; log entry 12). Safe. -/
  | operandMissing
  /-- A request with an operand where the mode has none (spec/40_dispatch.md R109; log entry 12). Safe. -/
  | operandSurplus
  /-- A request whose operand is above 255 (one operand byte) or 65535 (two)
  (spec/40_dispatch.md R109; log entry 12). Safe. -/
  | operandOutOfRange
  /-- The host supplies more than 65536 bytes of ROM. Raised by the host port
  (spec/20_memory.md R52: ROM_LEN is at most 65536; log entry 7). Safe. -/
  | romTooLong
  /-- The host supplies ROM while a run is in progress. Raised by `sessionAct`
  (spec/40_dispatch.md R112: before the run; spec/10_state.md R38; log entry 7). Safe. -/
  | runInProgress
  deriving DecidableEq, Repr

/-- MEMORY (spec/10_state.md R37) as address and byte pairs in one canonical form (`Memory.wf`):
addresses strictly rising and no pair that holds the reset byte. -/
abbrev Memory := List Host.Cell

/-- What an address that no pair lists reads as: MEMORY is zero-initialized (spec/10_state.md R37, R40;
spec/20_memory.md R56). -/
def Memory.unlisted : Byte := 0x00

/-- The state. The first eight fields are the spec's (spec/10_state.md R20); `rom` and `params` are
parameters of the step relation (R38, R41), which no step writes (log entries 2 and 3). -/
structure State where
  /-- The accumulator A (spec/10_state.md R21). -/
  a : Byte
  /-- The index register X (spec/10_state.md R21). -/
  x : Byte
  /-- The index register Y (spec/10_state.md R21). -/
  y : Byte
  /-- The stack pointer S (spec/10_state.md R27). -/
  sp : Byte
  /-- The status register P (spec/10_state.md R28). -/
  p : Byte
  /-- The program counter, an index into ROM (spec/10_state.md R24). -/
  pc : Word
  /-- The data memory (spec/10_state.md R37). -/
  mem : Memory
  /-- The run state (spec/10_state.md R36). -/
  run : RunState
  /-- The instruction stream ROM; its length is ROM_LEN (spec/20_memory.md R52). -/
  rom : List Byte
  /-- The policy and reset parameters (spec/00_scope.md R8). -/
  params : Params
  deriving DecidableEq, Repr

/-- The state after reset with given parameters and instruction stream
(spec/70_reset_and_hazards.md R270, spec/10_state.md R40). -/
def State.afterReset (params : Params) (rom : List Byte) : State where
  a := params.resetA
  x := params.resetX
  y := params.resetY
  sp := params.resetS
  p := 0x24
  pc := 0x0000
  mem := []
  run := .running
  rom := rom
  params := params

/-- The state after reset with the spec's default parameters and no instruction stream supplied yet
(DESIGN CHOICE: A, X, Y, S at the spec's simulation defaults, log entry 1; no program, log entry 3). -/
def State.reset : State := .afterReset .default []

/-- What a meaning, a request and a step answer. -/
abbrev Result := Host.Outcome State Fault Refusal

end Sys2Proof.Machine
end

