-- ==== Sys2Proof/Machine/Ops.lean ====
section
/-! DEFINITION. Ops.lean: the named operations over memory and registers, the stack primitives, the
flag writes and the end of a run. The core has no exception entry and no return from one
(spec/60_exceptions.md R250, R255, R256); what it has instead, halt and fault of spec/00_scope.md R13,
is the one operation `endRun`. -/

namespace Sys2Proof.Machine

/-! ### Memory -/

/-- The byte at an address (spec/20_memory.md R56). -/
def Memory.read : Memory → Nat → Byte
  | [], _ => Memory.unlisted
  | (k, v) :: m, a => if k = a then v else Memory.read m a

/-- A pair in front of a memory, unless it holds what an unlisted address reads as. -/
def Memory.cons (a : Nat) (v : Byte) (m : Memory) : Memory :=
  if v = Memory.unlisted then m else (a, v) :: m

/-- The memory with one byte replaced (spec/20_memory.md R56), in canonical form again. -/
def Memory.write : Memory → Nat → Byte → Memory
  | [], a, v => Memory.cons a v []
  | (k, w) :: m, a, v =>
    if a < k then Memory.cons a v ((k, w) :: m)
    else if a = k then Memory.cons a v m
    else (k, w) :: Memory.write m a v

/-- The pairs from an address upwards are in canonical form: addresses strictly rising, below 65536
(spec/20_memory.md R51), none holding the unlisted byte. -/
def Memory.wfFrom : Nat → Memory → Bool
  | _, [] => true
  | lo, (k, v) :: m =>
    decide (lo ≤ k) && decide (k < 65536) && decide (v ≠ Memory.unlisted) && Memory.wfFrom (k + 1) m

/-- The canonical form of a memory. -/
def Memory.wf (m : Memory) : Bool := Memory.wfFrom 0 m

/-- M[addr] (spec/00_scope.md R12). -/
def State.readByte (s : State) (a : Word) : Byte := s.mem.read a.toNat

/-- M[addr] <- v (spec/00_scope.md R12). -/
def State.writeByte (s : State) (a : Word) (v : Byte) : State :=
  { s with mem := s.mem.write a.toNat v }

/-! ### Registers -/

/-- A <- v. -/
def State.setA (s : State) (v : Byte) : State := { s with a := v }

/-- X <- v. -/
def State.setX (s : State) (v : Byte) : State := { s with x := v }

/-- Y <- v. -/
def State.setY (s : State) (v : Byte) : State := { s with y := v }

/-- S <- v. -/
def State.setS (s : State) (v : Byte) : State := { s with sp := v }

/-- P <- v, all eight bits. -/
def State.setP (s : State) (v : Byte) : State := { s with p := v }

/-- PC <- v. -/
def State.setPc (s : State) (v : Word) : State := { s with pc := v }

/-- run <- r. -/
def State.setRun (s : State) (r : RunState) : State := { s with run := r }

/-- The instruction stream fixed by the host (spec/40_dispatch.md R112). No instruction does this. -/
def State.setRom (s : State) (rom : List Byte) : State := { s with rom := rom }

/-! ### Flags -/

/-- P.f (spec/00_scope.md R11). -/
def State.flag (s : State) (f : Flag) : Bool := getFlag s.p f

/-- P.f <- v, the other bits left (spec/00_scope.md R11). -/
def State.setFlag (s : State) (f : Flag) (v : Bool) : State := s.setP (putFlag s.p f v)

/-- SetZN(r) (spec/42_alu.md R141). -/
def State.setZN (s : State) (r : Byte) : State := s.setP (Machine.setZN s.p r)

/-! ### The stack -/

/-- The address 0x0100 + S of the stack window (spec/10_state.md R27). -/
def stackAddress (sp : Byte) : Word := 0x0100 + zext8 sp

/-- Push(v): the write uses the old S, then S decrements and wraps (spec/46_stack.md R210). -/
def State.push (s : State) (v : Byte) : State :=
  (s.writeByte (stackAddress s.sp) v).setS (dec8 s.sp)

/-- Pull(), the byte: read at the incremented S (spec/46_stack.md R211). -/
def State.pulled (s : State) : Byte := s.readByte (stackAddress (inc8 s.sp))

/-- Pull(), the state: S increments and wraps, the byte it reads stays (spec/46_stack.md R211). -/
def State.pull (s : State) : State := s.setS (inc8 s.sp)

/-! ### The program counter -/

/-- PC <- mask16(PC + d) for an integer d (spec/10_state.md R25, spec/48_branches.md R235). -/
def State.addPc (s : State) (d : Int) : State := s.setPc (mask16 (s.pc.toNat + d))

/-! ### The end of a run, and the answers of a meaning -/

/-- halt(reason) and fault(reason) of spec/00_scope.md R13: the run state is written and nothing else
(spec/60_exceptions.md R254, R255). -/
def State.endRun (s : State) (r : RunState) : State := s.setRun r

/-- The answer of a handler: its state, if the pair has a handler at all; else UnsupportedCombination
with no state change (spec/40_dispatch.md R104, R109, R110; log entry 6). -/
def handled (supported : Bool) (t : State) : Result :=
  if supported then .next t else .refused .unsupportedCombination

end Sys2Proof.Machine
end

