-- ==== Sys2Proof/Machine/Operands.lean ====
section
/-! DEFINITION. Operands.lean: the effective address and the value of an operand
(spec/41_addressing.md R120 to R137). -/

namespace Sys2Proof.Machine

/-- hi_addr of spec/41_addressing.md R136: where the high byte of a zero-page pointer is. -/
def hiAddr (wrap : Bool) (ind : Byte) : Word :=
  if wrap then zext8 (mask8 (ind.toNat + 1)) else mask16 (ind.toNat + 1)

/-- The little-endian word a zero-page pointer designates (spec/41_addressing.md R132, R133, R136). -/
def State.pointer (s : State) (ind : Byte) : Word :=
  wordOf (s.readByte (zext8 ind)) (s.readByte (hiAddr s.params.zpPtrWrap ind))

/-- The operand byte plus an index register, wrapped in the zero page (spec/41_addressing.md R127). -/
def zpIndexed (o index : Byte) : Byte := mask8 (o.toNat + index.toNat)

/-- A word plus an index register, wrapped at 16 bits (spec/41_addressing.md R130, R133). -/
def wordIndexed (w : Word) (index : Byte) : Word := mask16 (w.toNat + index.toNat)

/-- EA(mode, operand) of spec/41_addressing.md R137. -/
def State.ea (s : State) : MemOperand → Word
  | .zp o => zext8 o
  | .zpx o => zext8 (zpIndexed o s.x)
  | .zpy o => zext8 (zpIndexed o s.y)
  | .abs o => o
  | .absx o => wordIndexed o s.x
  | .absy o => wordIndexed o s.y
  | .zpxi o => s.pointer (zpIndexed o s.x)
  | .zpiy o => wordIndexed (s.pointer o) s.y

/-- Val(mode, operand) of spec/41_addressing.md R137. -/
def State.val (s : State) : ValueOperand → Byte
  | .imm o => o
  | .mem m => s.readByte (s.ea m)

end Sys2Proof.Machine
end

