-- ==== Sys2Proof/Machine/Arithmetic.lean ====
section
/-! DEFINITION. Arithmetic.lean: add, subtract and compare (spec/44_arithmetic_compare.md R180 to R184). -/

namespace Sys2Proof.Machine

/-- The writes ADC and SBC share: C, V, A, then SetZN of the result
(spec/44_arithmetic_compare.md R180, R181). -/
def State.setAlu (s : State) (out : AluOut) : State :=
  (((s.setFlag .c out.carry).setFlag .v out.overflow).setA out.result).setZN out.result

/-- The writes the compares share: C and Z, and N only under diff_bit7
(spec/44_arithmetic_compare.md R182 to R184). -/
def State.setCompare (s : State) (out : CmpOut) : State :=
  let t := (s.setFlag .c out.carry).setFlag .z out.zero
  match s.params.cmpNPolicy with
  | .unchanged => t
  | .diffBit7 => t.setFlag .n out.negative

/-- ADC (spec/44_arithmetic_compare.md R180). -/
def execAdc (op : ValueOperand) (s : State) : Result :=
  handled (Mnemonic.adc.supports op.mode) (s.setAlu (add8 s.a (s.val op) (s.flag .c)))

/-- SBC (spec/44_arithmetic_compare.md R181). -/
def execSbc (op : ValueOperand) (s : State) : Result :=
  handled (Mnemonic.sbc.supports op.mode) (s.setAlu (sub8 s.a (s.val op) (s.flag .c)))

/-- CMP (spec/44_arithmetic_compare.md R182). -/
def execCmp (op : ValueOperand) (s : State) : Result :=
  handled (Mnemonic.cmp.supports op.mode) (s.setCompare (cmp8 s.a (s.val op)))

/-- CPX (spec/44_arithmetic_compare.md R183). -/
def execCpx (op : ValueOperand) (s : State) : Result :=
  handled (Mnemonic.cpx.supports op.mode) (s.setCompare (cmp8 s.x (s.val op)))

/-- CPY (spec/44_arithmetic_compare.md R184). -/
def execCpy (op : ValueOperand) (s : State) : Result :=
  handled (Mnemonic.cpy.supports op.mode) (s.setCompare (cmp8 s.y (s.val op)))

end Sys2Proof.Machine
end

