-- ==== Sys2Proof/Machine/Branch.lean ====
section
/-! DEFINITION. Branch.lean: the conditional branches (spec/48_branches.md R235 to R243). -/

namespace Sys2Proof.Machine

/-- Branch(cond, operand) of spec/48_branches.md R235: PC still holds the index of the opcode byte; the
step adds the 2 of the advance. -/
def State.branch (s : State) (cond : Bool) (d : Byte) : State :=
  if cond then s.addPc (signed8 d) else s

/-- BCC (spec/48_branches.md R236). -/
def execBcc (d : Byte) (s : State) : Result := .next (s.branch (!s.flag .c) d)

/-- BCS (spec/48_branches.md R237). -/
def execBcs (d : Byte) (s : State) : Result := .next (s.branch (s.flag .c) d)

/-- BEQ (spec/48_branches.md R238). -/
def execBeq (d : Byte) (s : State) : Result := .next (s.branch (s.flag .z) d)

/-- BNE (spec/48_branches.md R239). -/
def execBne (d : Byte) (s : State) : Result := .next (s.branch (!s.flag .z) d)

/-- BMI (spec/48_branches.md R240). -/
def execBmi (d : Byte) (s : State) : Result := .next (s.branch (s.flag .n) d)

/-- BPL (spec/48_branches.md R241). -/
def execBpl (d : Byte) (s : State) : Result := .next (s.branch (!s.flag .n) d)

/-- BVC (spec/48_branches.md R242). -/
def execBvc (d : Byte) (s : State) : Result := .next (s.branch (!s.flag .v) d)

/-- BVS (spec/48_branches.md R243). -/
def execBvs (d : Byte) (s : State) : Result := .next (s.branch (s.flag .v) d)

end Sys2Proof.Machine
end

