-- ==== Sys2Proof/Machine/FlagOps.lean ====
section
/-! DEFINITION. FlagOps.lean: the flag operations, NOP and HLT (spec/47_flags_nop.md R220 to R227,
spec/40_dispatch.md R107). -/

namespace Sys2Proof.Machine

/-- CLC (spec/47_flags_nop.md R220). -/
def execClc (s : State) : Result := .next (s.setFlag .c false)

/-- SEC (spec/47_flags_nop.md R221). -/
def execSec (s : State) : Result := .next (s.setFlag .c true)

/-- CLI (spec/47_flags_nop.md R222). -/
def execCli (s : State) : Result := .next (s.setFlag .i false)

/-- SEI (spec/47_flags_nop.md R223). -/
def execSei (s : State) : Result := .next (s.setFlag .i true)

/-- CLD (spec/47_flags_nop.md R224). -/
def execCld (s : State) : Result := .next (s.setFlag .d false)

/-- SED (spec/47_flags_nop.md R225). -/
def execSed (s : State) : Result := .next (s.setFlag .d true)

/-- CLV (spec/47_flags_nop.md R226). -/
def execClv (s : State) : Result := .next (s.setFlag .v false)

/-- NOP (spec/47_flags_nop.md R227): no state change; the step advances PC. -/
def execNop (s : State) : Result := .next s

/-- HLT (spec/40_dispatch.md R107): the run halts and nothing else changes. -/
def execHlt (s : State) : Result := .next (s.endRun (.halted .hlt))

end Sys2Proof.Machine
end

