-- ==== Sys2Proof/Machine/LoadStore.lean ====
section
/-! DEFINITION. LoadStore.lean: loads, stores and register transfers
(spec/43_load_store_transfer.md R160 to R171). -/

namespace Sys2Proof.Machine

/-- LDA (spec/43_load_store_transfer.md R160). -/
def execLda (op : ValueOperand) (s : State) : Result :=
  handled (Mnemonic.lda.supports op.mode) ((s.setA (s.val op)).setZN (s.val op))

/-- LDX (spec/43_load_store_transfer.md R161). -/
def execLdx (op : ValueOperand) (s : State) : Result :=
  handled (Mnemonic.ldx.supports op.mode) ((s.setX (s.val op)).setZN (s.val op))

/-- LDY (spec/43_load_store_transfer.md R162). -/
def execLdy (op : ValueOperand) (s : State) : Result :=
  handled (Mnemonic.ldy.supports op.mode) ((s.setY (s.val op)).setZN (s.val op))

/-- STA (spec/43_load_store_transfer.md R163): no flag is written. -/
def execSta (m : MemOperand) (s : State) : Result :=
  handled (Mnemonic.sta.supports m.mode) (s.writeByte (s.ea m) s.a)

/-- STX (spec/43_load_store_transfer.md R164): no flag is written. -/
def execStx (m : MemOperand) (s : State) : Result :=
  handled (Mnemonic.stx.supports m.mode) (s.writeByte (s.ea m) s.x)

/-- STY (spec/43_load_store_transfer.md R165): no flag is written. -/
def execSty (m : MemOperand) (s : State) : Result :=
  handled (Mnemonic.sty.supports m.mode) (s.writeByte (s.ea m) s.y)

/-- TAX (spec/43_load_store_transfer.md R166). -/
def execTax (s : State) : Result := .next ((s.setX s.a).setZN s.a)

/-- TAY (spec/43_load_store_transfer.md R167). -/
def execTay (s : State) : Result := .next ((s.setY s.a).setZN s.a)

/-- TXA (spec/43_load_store_transfer.md R168). -/
def execTxa (s : State) : Result := .next ((s.setA s.x).setZN s.x)

/-- TYA (spec/43_load_store_transfer.md R169). -/
def execTya (s : State) : Result := .next ((s.setA s.y).setZN s.y)

/-- TSX (spec/43_load_store_transfer.md R170). -/
def execTsx (s : State) : Result := .next ((s.setX s.sp).setZN s.sp)

/-- TXS (spec/43_load_store_transfer.md R171): the one transfer that writes no flag. -/
def execTxs (s : State) : Result := .next (s.setS s.x)

end Sys2Proof.Machine
end

