-- ==== Sys2Proof/Machine/Logic.lean ====
section
/-! DEFINITION. Logic.lean: logic, shifts and rotates, increments and decrements
(spec/45_logic_shift_incdec.md R190 to R202). -/

namespace Sys2Proof.Machine

/-- A <- r ; SetZN(r), which the three logic instructions share (spec/45_logic_shift_incdec.md section 1). -/
def State.setLogic (s : State) (r : Byte) : State := (s.setA r).setZN r

/-- The byte a shift or rotate reads (spec/45_logic_shift_incdec.md section 2). -/
def State.shiftInput (s : State) : ShiftOperand → Byte
  | .acc => s.a
  | .mem m => s.readByte (s.ea m)

/-- The byte a shift or rotate writes, to A or back to the same effective address
(spec/45_logic_shift_incdec.md section 2, spec/41_addressing.md R121). -/
def State.shiftOutput (s : State) (t : ShiftOperand) (r : Byte) : State :=
  match t with
  | .acc => s.setA r
  | .mem m => s.writeByte (s.ea m) r

/-- The common operation of shifts and rotates: C, SetZN, then the write
(spec/45_logic_shift_incdec.md section 2). -/
def State.shift (s : State) (f : Byte → Bool → ShiftOut) (t : ShiftOperand) : State :=
  let out := f (s.shiftInput t) (s.flag .c)
  ((s.shiftOutput t out.result).setFlag .c out.carry).setZN out.result

/-- The read-modify-write of INC and DEC (spec/45_logic_shift_incdec.md R197, R198). -/
def State.modify (s : State) (f : Byte → Byte) (m : MemOperand) : State :=
  let r := f (s.readByte (s.ea m))
  (s.writeByte (s.ea m) r).setZN r

/-- AND (spec/45_logic_shift_incdec.md R190). -/
def execAnd (op : ValueOperand) (s : State) : Result :=
  handled (Mnemonic.and.supports op.mode) (s.setLogic (and8 s.a (s.val op)))

/-- ORA (spec/45_logic_shift_incdec.md R191). -/
def execOra (op : ValueOperand) (s : State) : Result :=
  handled (Mnemonic.ora.supports op.mode) (s.setLogic (ora8 s.a (s.val op)))

/-- EOR (spec/45_logic_shift_incdec.md R192). -/
def execEor (op : ValueOperand) (s : State) : Result :=
  handled (Mnemonic.eor.supports op.mode) (s.setLogic (eor8 s.a (s.val op)))

/-- ASL (spec/45_logic_shift_incdec.md R193). -/
def execAsl (t : ShiftOperand) (s : State) : Result :=
  handled (Mnemonic.asl.supports t.mode) (s.shift asl8 t)

/-- LSR (spec/45_logic_shift_incdec.md R194). -/
def execLsr (t : ShiftOperand) (s : State) : Result :=
  handled (Mnemonic.lsr.supports t.mode) (s.shift lsr8 t)

/-- ROL (spec/45_logic_shift_incdec.md R195). -/
def execRol (t : ShiftOperand) (s : State) : Result :=
  handled (Mnemonic.rol.supports t.mode) (s.shift rol8 t)

/-- ROR (spec/45_logic_shift_incdec.md R196). -/
def execRor (t : ShiftOperand) (s : State) : Result :=
  handled (Mnemonic.ror.supports t.mode) (s.shift ror8 t)

/-- INC (spec/45_logic_shift_incdec.md R197). -/
def execInc (m : MemOperand) (s : State) : Result :=
  handled (Mnemonic.inc.supports m.mode) (s.modify inc8 m)

/-- DEC (spec/45_logic_shift_incdec.md R198). -/
def execDec (m : MemOperand) (s : State) : Result :=
  handled (Mnemonic.dec.supports m.mode) (s.modify dec8 m)

/-- INX (spec/45_logic_shift_incdec.md R199). -/
def execInx (s : State) : Result := .next ((s.setX (inc8 s.x)).setZN (inc8 s.x))

/-- INY (spec/45_logic_shift_incdec.md R200). -/
def execIny (s : State) : Result := .next ((s.setY (inc8 s.y)).setZN (inc8 s.y))

/-- DEX (spec/45_logic_shift_incdec.md R201). -/
def execDex (s : State) : Result := .next ((s.setX (dec8 s.x)).setZN (dec8 s.x))

/-- DEY (spec/45_logic_shift_incdec.md R202). -/
def execDey (s : State) : Result := .next ((s.setY (dec8 s.y)).setZN (dec8 s.y))

end Sys2Proof.Machine
end

