-- ==== Sys2Proof/Machine/Stack.lean ====
section
/-! DEFINITION. Stack.lean: the stack instructions (spec/46_stack.md R212 to R215). -/

namespace Sys2Proof.Machine

/-- PHA (spec/46_stack.md R212). -/
def execPha (s : State) : Result := .next (s.push s.a)

/-- PLA (spec/46_stack.md R213): value-producing, so Z and N are written. -/
def execPla (s : State) : Result := .next ((s.pull.setA s.pulled).setZN s.pulled)

/-- The byte PHP pushes (spec/46_stack.md R214). -/
def State.pushedP (s : State) : Byte := s.p ||| s.params.phpOrMask

/-- The P that PLP leaves, from the pulled byte (spec/46_stack.md R215). -/
def State.pulledP (s : State) : Byte :=
  (s.pulled &&& (s.params.plpKeepMask ^^^ 0xFF)) ||| (s.p &&& s.params.plpKeepMask)

/-- PHP (spec/46_stack.md R214): P itself is unchanged. -/
def execPhp (s : State) : Result := .next (s.push s.pushedP)

/-- PLP (spec/46_stack.md R215): SetZN is not applied. -/
def execPlp (s : State) : Result := .next (s.pull.setP s.pulledP)

end Sys2Proof.Machine
end

