-- ==== Sys2Proof/Machine/Unassigned.lean ====
section
/-! DEFINITION. Unassigned.lean: the 112 unassigned opcode bytes (spec/30_encoding.md R86,
spec/47_flags_nop.md R228), one definition each over one shared operation. -/

namespace Sys2Proof.Machine

/-- An unassigned opcode under each value of UNASSIGNED_POLICY (spec/47_flags_nop.md R228): no state
change, or fault(UnassignedOpcode). -/
def unassignedOp (s : State) : Result :=
  match s.params.unassignedPolicy with
  | .nop1 => .next s
  | .refuse => .next (s.endRun (.faulted .unassignedOpcode))

def execUnassigned02 (s : State) : Result := unassignedOp s
def execUnassigned03 (s : State) : Result := unassignedOp s
def execUnassigned04 (s : State) : Result := unassignedOp s
def execUnassigned07 (s : State) : Result := unassignedOp s
def execUnassigned0B (s : State) : Result := unassignedOp s
def execUnassigned0C (s : State) : Result := unassignedOp s
def execUnassigned0F (s : State) : Result := unassignedOp s
def execUnassigned12 (s : State) : Result := unassignedOp s
def execUnassigned13 (s : State) : Result := unassignedOp s
def execUnassigned14 (s : State) : Result := unassignedOp s
def execUnassigned17 (s : State) : Result := unassignedOp s
def execUnassigned1A (s : State) : Result := unassignedOp s
def execUnassigned1B (s : State) : Result := unassignedOp s
def execUnassigned1C (s : State) : Result := unassignedOp s
def execUnassigned1F (s : State) : Result := unassignedOp s
def execUnassigned20 (s : State) : Result := unassignedOp s
def execUnassigned22 (s : State) : Result := unassignedOp s
def execUnassigned23 (s : State) : Result := unassignedOp s
def execUnassigned24 (s : State) : Result := unassignedOp s
def execUnassigned27 (s : State) : Result := unassignedOp s
def execUnassigned2B (s : State) : Result := unassignedOp s
def execUnassigned2C (s : State) : Result := unassignedOp s
def execUnassigned2F (s : State) : Result := unassignedOp s
def execUnassigned32 (s : State) : Result := unassignedOp s
def execUnassigned33 (s : State) : Result := unassignedOp s
def execUnassigned34 (s : State) : Result := unassignedOp s
def execUnassigned37 (s : State) : Result := unassignedOp s
def execUnassigned3A (s : State) : Result := unassignedOp s
def execUnassigned3B (s : State) : Result := unassignedOp s
def execUnassigned3C (s : State) : Result := unassignedOp s
def execUnassigned3F (s : State) : Result := unassignedOp s
def execUnassigned40 (s : State) : Result := unassignedOp s
def execUnassigned42 (s : State) : Result := unassignedOp s
def execUnassigned43 (s : State) : Result := unassignedOp s
def execUnassigned44 (s : State) : Result := unassignedOp s
def execUnassigned47 (s : State) : Result := unassignedOp s
def execUnassigned4B (s : State) : Result := unassignedOp s
def execUnassigned4C (s : State) : Result := unassignedOp s
def execUnassigned4F (s : State) : Result := unassignedOp s
def execUnassigned52 (s : State) : Result := unassignedOp s
def execUnassigned53 (s : State) : Result := unassignedOp s
def execUnassigned54 (s : State) : Result := unassignedOp s
def execUnassigned57 (s : State) : Result := unassignedOp s
def execUnassigned5A (s : State) : Result := unassignedOp s
def execUnassigned5B (s : State) : Result := unassignedOp s
def execUnassigned5C (s : State) : Result := unassignedOp s
def execUnassigned5F (s : State) : Result := unassignedOp s
def execUnassigned60 (s : State) : Result := unassignedOp s
def execUnassigned62 (s : State) : Result := unassignedOp s
def execUnassigned63 (s : State) : Result := unassignedOp s
def execUnassigned64 (s : State) : Result := unassignedOp s
def execUnassigned67 (s : State) : Result := unassignedOp s
def execUnassigned6B (s : State) : Result := unassignedOp s
def execUnassigned6C (s : State) : Result := unassignedOp s
def execUnassigned6F (s : State) : Result := unassignedOp s
def execUnassigned72 (s : State) : Result := unassignedOp s
def execUnassigned73 (s : State) : Result := unassignedOp s
def execUnassigned74 (s : State) : Result := unassignedOp s
def execUnassigned77 (s : State) : Result := unassignedOp s
def execUnassigned7A (s : State) : Result := unassignedOp s
def execUnassigned7B (s : State) : Result := unassignedOp s
def execUnassigned7C (s : State) : Result := unassignedOp s
def execUnassigned7F (s : State) : Result := unassignedOp s
def execUnassigned80 (s : State) : Result := unassignedOp s
def execUnassigned82 (s : State) : Result := unassignedOp s
def execUnassigned83 (s : State) : Result := unassignedOp s
def execUnassigned87 (s : State) : Result := unassignedOp s
def execUnassigned89 (s : State) : Result := unassignedOp s
def execUnassigned8B (s : State) : Result := unassignedOp s
def execUnassigned8F (s : State) : Result := unassignedOp s
def execUnassigned92 (s : State) : Result := unassignedOp s
def execUnassigned93 (s : State) : Result := unassignedOp s
def execUnassigned97 (s : State) : Result := unassignedOp s
def execUnassigned9B (s : State) : Result := unassignedOp s
def execUnassigned9C (s : State) : Result := unassignedOp s
def execUnassigned9E (s : State) : Result := unassignedOp s
def execUnassigned9F (s : State) : Result := unassignedOp s
def execUnassignedA3 (s : State) : Result := unassignedOp s
def execUnassignedA7 (s : State) : Result := unassignedOp s
def execUnassignedAB (s : State) : Result := unassignedOp s
def execUnassignedAF (s : State) : Result := unassignedOp s
def execUnassignedB2 (s : State) : Result := unassignedOp s
def execUnassignedB3 (s : State) : Result := unassignedOp s
def execUnassignedB7 (s : State) : Result := unassignedOp s
def execUnassignedBB (s : State) : Result := unassignedOp s
def execUnassignedBF (s : State) : Result := unassignedOp s
def execUnassignedC2 (s : State) : Result := unassignedOp s
def execUnassignedC3 (s : State) : Result := unassignedOp s
def execUnassignedC7 (s : State) : Result := unassignedOp s
def execUnassignedCB (s : State) : Result := unassignedOp s
def execUnassignedCF (s : State) : Result := unassignedOp s
def execUnassignedD2 (s : State) : Result := unassignedOp s
def execUnassignedD3 (s : State) : Result := unassignedOp s
def execUnassignedD4 (s : State) : Result := unassignedOp s
def execUnassignedD7 (s : State) : Result := unassignedOp s
def execUnassignedDA (s : State) : Result := unassignedOp s
def execUnassignedDB (s : State) : Result := unassignedOp s
def execUnassignedDC (s : State) : Result := unassignedOp s
def execUnassignedDF (s : State) : Result := unassignedOp s
def execUnassignedE2 (s : State) : Result := unassignedOp s
def execUnassignedE3 (s : State) : Result := unassignedOp s
def execUnassignedE7 (s : State) : Result := unassignedOp s
def execUnassignedEB (s : State) : Result := unassignedOp s
def execUnassignedEF (s : State) : Result := unassignedOp s
def execUnassignedF2 (s : State) : Result := unassignedOp s
def execUnassignedF3 (s : State) : Result := unassignedOp s
def execUnassignedF4 (s : State) : Result := unassignedOp s
def execUnassignedF7 (s : State) : Result := unassignedOp s
def execUnassignedFA (s : State) : Result := unassignedOp s
def execUnassignedFB (s : State) : Result := unassignedOp s
def execUnassignedFC (s : State) : Result := unassignedOp s
def execUnassignedFF (s : State) : Result := unassignedOp s

end Sys2Proof.Machine
end

