-- ==== Sys2Proof/Machine/Dispatch.lean ====
section
/-! DEFINITION. Dispatch.lean: the handler Exec of an instruction (spec/40_dispatch.md R104), one arm per
constructor. It does not advance PC: that is the step's (R105). -/

namespace Sys2Proof.Machine

def exec (i : Instr) (s : State) : Host.Outcome State Fault Refusal :=
  match i with
  | .hlt => Sys2Proof.Machine.execHlt s
  | .lda op => Sys2Proof.Machine.execLda op s
  | .ldx op => Sys2Proof.Machine.execLdx op s
  | .ldy op => Sys2Proof.Machine.execLdy op s
  | .sta m => Sys2Proof.Machine.execSta m s
  | .stx m => Sys2Proof.Machine.execStx m s
  | .sty m => Sys2Proof.Machine.execSty m s
  | .tax => Sys2Proof.Machine.execTax s
  | .tay => Sys2Proof.Machine.execTay s
  | .txa => Sys2Proof.Machine.execTxa s
  | .tya => Sys2Proof.Machine.execTya s
  | .tsx => Sys2Proof.Machine.execTsx s
  | .txs => Sys2Proof.Machine.execTxs s
  | .adc op => Sys2Proof.Machine.execAdc op s
  | .sbc op => Sys2Proof.Machine.execSbc op s
  | .cmp op => Sys2Proof.Machine.execCmp op s
  | .cpx op => Sys2Proof.Machine.execCpx op s
  | .cpy op => Sys2Proof.Machine.execCpy op s
  | .and op => Sys2Proof.Machine.execAnd op s
  | .ora op => Sys2Proof.Machine.execOra op s
  | .eor op => Sys2Proof.Machine.execEor op s
  | .asl t => Sys2Proof.Machine.execAsl t s
  | .lsr t => Sys2Proof.Machine.execLsr t s
  | .rol t => Sys2Proof.Machine.execRol t s
  | .ror t => Sys2Proof.Machine.execRor t s
  | .inc m => Sys2Proof.Machine.execInc m s
  | .dec m => Sys2Proof.Machine.execDec m s
  | .inx => Sys2Proof.Machine.execInx s
  | .iny => Sys2Proof.Machine.execIny s
  | .dex => Sys2Proof.Machine.execDex s
  | .dey => Sys2Proof.Machine.execDey s
  | .pha => Sys2Proof.Machine.execPha s
  | .pla => Sys2Proof.Machine.execPla s
  | .php => Sys2Proof.Machine.execPhp s
  | .plp => Sys2Proof.Machine.execPlp s
  | .clc => Sys2Proof.Machine.execClc s
  | .sec => Sys2Proof.Machine.execSec s
  | .cli => Sys2Proof.Machine.execCli s
  | .sei => Sys2Proof.Machine.execSei s
  | .cld => Sys2Proof.Machine.execCld s
  | .sed => Sys2Proof.Machine.execSed s
  | .clv => Sys2Proof.Machine.execClv s
  | .nop => Sys2Proof.Machine.execNop s
  | .bcc d => Sys2Proof.Machine.execBcc d s
  | .bcs d => Sys2Proof.Machine.execBcs d s
  | .beq d => Sys2Proof.Machine.execBeq d s
  | .bne d => Sys2Proof.Machine.execBne d s
  | .bmi d => Sys2Proof.Machine.execBmi d s
  | .bpl d => Sys2Proof.Machine.execBpl d s
  | .bvc d => Sys2Proof.Machine.execBvc d s
  | .bvs d => Sys2Proof.Machine.execBvs d s
  | .unassigned02 => Sys2Proof.Machine.execUnassigned02 s
  | .unassigned03 => Sys2Proof.Machine.execUnassigned03 s
  | .unassigned04 => Sys2Proof.Machine.execUnassigned04 s
  | .unassigned07 => Sys2Proof.Machine.execUnassigned07 s
  | .unassigned0B => Sys2Proof.Machine.execUnassigned0B s
  | .unassigned0C => Sys2Proof.Machine.execUnassigned0C s
  | .unassigned0F => Sys2Proof.Machine.execUnassigned0F s
  | .unassigned12 => Sys2Proof.Machine.execUnassigned12 s
  | .unassigned13 => Sys2Proof.Machine.execUnassigned13 s
  | .unassigned14 => Sys2Proof.Machine.execUnassigned14 s
  | .unassigned17 => Sys2Proof.Machine.execUnassigned17 s
  | .unassigned1A => Sys2Proof.Machine.execUnassigned1A s
  | .unassigned1B => Sys2Proof.Machine.execUnassigned1B s
  | .unassigned1C => Sys2Proof.Machine.execUnassigned1C s
  | .unassigned1F => Sys2Proof.Machine.execUnassigned1F s
  | .unassigned20 => Sys2Proof.Machine.execUnassigned20 s
  | .unassigned22 => Sys2Proof.Machine.execUnassigned22 s
  | .unassigned23 => Sys2Proof.Machine.execUnassigned23 s
  | .unassigned24 => Sys2Proof.Machine.execUnassigned24 s
  | .unassigned27 => Sys2Proof.Machine.execUnassigned27 s
  | .unassigned2B => Sys2Proof.Machine.execUnassigned2B s
  | .unassigned2C => Sys2Proof.Machine.execUnassigned2C s
  | .unassigned2F => Sys2Proof.Machine.execUnassigned2F s
  | .unassigned32 => Sys2Proof.Machine.execUnassigned32 s
  | .unassigned33 => Sys2Proof.Machine.execUnassigned33 s
  | .unassigned34 => Sys2Proof.Machine.execUnassigned34 s
  | .unassigned37 => Sys2Proof.Machine.execUnassigned37 s
  | .unassigned3A => Sys2Proof.Machine.execUnassigned3A s
  | .unassigned3B => Sys2Proof.Machine.execUnassigned3B s
  | .unassigned3C => Sys2Proof.Machine.execUnassigned3C s
  | .unassigned3F => Sys2Proof.Machine.execUnassigned3F s
  | .unassigned40 => Sys2Proof.Machine.execUnassigned40 s
  | .unassigned42 => Sys2Proof.Machine.execUnassigned42 s
  | .unassigned43 => Sys2Proof.Machine.execUnassigned43 s
  | .unassigned44 => Sys2Proof.Machine.execUnassigned44 s
  | .unassigned47 => Sys2Proof.Machine.execUnassigned47 s
  | .unassigned4B => Sys2Proof.Machine.execUnassigned4B s
  | .unassigned4C => Sys2Proof.Machine.execUnassigned4C s
  | .unassigned4F => Sys2Proof.Machine.execUnassigned4F s
  | .unassigned52 => Sys2Proof.Machine.execUnassigned52 s
  | .unassigned53 => Sys2Proof.Machine.execUnassigned53 s
  | .unassigned54 => Sys2Proof.Machine.execUnassigned54 s
  | .unassigned57 => Sys2Proof.Machine.execUnassigned57 s
  | .unassigned5A => Sys2Proof.Machine.execUnassigned5A s
  | .unassigned5B => Sys2Proof.Machine.execUnassigned5B s
  | .unassigned5C => Sys2Proof.Machine.execUnassigned5C s
  | .unassigned5F => Sys2Proof.Machine.execUnassigned5F s
  | .unassigned60 => Sys2Proof.Machine.execUnassigned60 s
  | .unassigned62 => Sys2Proof.Machine.execUnassigned62 s
  | .unassigned63 => Sys2Proof.Machine.execUnassigned63 s
  | .unassigned64 => Sys2Proof.Machine.execUnassigned64 s
  | .unassigned67 => Sys2Proof.Machine.execUnassigned67 s
  | .unassigned6B => Sys2Proof.Machine.execUnassigned6B s
  | .unassigned6C => Sys2Proof.Machine.execUnassigned6C s
  | .unassigned6F => Sys2Proof.Machine.execUnassigned6F s
  | .unassigned72 => Sys2Proof.Machine.execUnassigned72 s
  | .unassigned73 => Sys2Proof.Machine.execUnassigned73 s
  | .unassigned74 => Sys2Proof.Machine.execUnassigned74 s
  | .unassigned77 => Sys2Proof.Machine.execUnassigned77 s
  | .unassigned7A => Sys2Proof.Machine.execUnassigned7A s
  | .unassigned7B => Sys2Proof.Machine.execUnassigned7B s
  | .unassigned7C => Sys2Proof.Machine.execUnassigned7C s
  | .unassigned7F => Sys2Proof.Machine.execUnassigned7F s
  | .unassigned80 => Sys2Proof.Machine.execUnassigned80 s
  | .unassigned82 => Sys2Proof.Machine.execUnassigned82 s
  | .unassigned83 => Sys2Proof.Machine.execUnassigned83 s
  | .unassigned87 => Sys2Proof.Machine.execUnassigned87 s
  | .unassigned89 => Sys2Proof.Machine.execUnassigned89 s
  | .unassigned8B => Sys2Proof.Machine.execUnassigned8B s
  | .unassigned8F => Sys2Proof.Machine.execUnassigned8F s
  | .unassigned92 => Sys2Proof.Machine.execUnassigned92 s
  | .unassigned93 => Sys2Proof.Machine.execUnassigned93 s
  | .unassigned97 => Sys2Proof.Machine.execUnassigned97 s
  | .unassigned9B => Sys2Proof.Machine.execUnassigned9B s
  | .unassigned9C => Sys2Proof.Machine.execUnassigned9C s
  | .unassigned9E => Sys2Proof.Machine.execUnassigned9E s
  | .unassigned9F => Sys2Proof.Machine.execUnassigned9F s
  | .unassignedA3 => Sys2Proof.Machine.execUnassignedA3 s
  | .unassignedA7 => Sys2Proof.Machine.execUnassignedA7 s
  | .unassignedAB => Sys2Proof.Machine.execUnassignedAB s
  | .unassignedAF => Sys2Proof.Machine.execUnassignedAF s
  | .unassignedB2 => Sys2Proof.Machine.execUnassignedB2 s
  | .unassignedB3 => Sys2Proof.Machine.execUnassignedB3 s
  | .unassignedB7 => Sys2Proof.Machine.execUnassignedB7 s
  | .unassignedBB => Sys2Proof.Machine.execUnassignedBB s
  | .unassignedBF => Sys2Proof.Machine.execUnassignedBF s
  | .unassignedC2 => Sys2Proof.Machine.execUnassignedC2 s
  | .unassignedC3 => Sys2Proof.Machine.execUnassignedC3 s
  | .unassignedC7 => Sys2Proof.Machine.execUnassignedC7 s
  | .unassignedCB => Sys2Proof.Machine.execUnassignedCB s
  | .unassignedCF => Sys2Proof.Machine.execUnassignedCF s
  | .unassignedD2 => Sys2Proof.Machine.execUnassignedD2 s
  | .unassignedD3 => Sys2Proof.Machine.execUnassignedD3 s
  | .unassignedD4 => Sys2Proof.Machine.execUnassignedD4 s
  | .unassignedD7 => Sys2Proof.Machine.execUnassignedD7 s
  | .unassignedDA => Sys2Proof.Machine.execUnassignedDA s
  | .unassignedDB => Sys2Proof.Machine.execUnassignedDB s
  | .unassignedDC => Sys2Proof.Machine.execUnassignedDC s
  | .unassignedDF => Sys2Proof.Machine.execUnassignedDF s
  | .unassignedE2 => Sys2Proof.Machine.execUnassignedE2 s
  | .unassignedE3 => Sys2Proof.Machine.execUnassignedE3 s
  | .unassignedE7 => Sys2Proof.Machine.execUnassignedE7 s
  | .unassignedEB => Sys2Proof.Machine.execUnassignedEB s
  | .unassignedEF => Sys2Proof.Machine.execUnassignedEF s
  | .unassignedF2 => Sys2Proof.Machine.execUnassignedF2 s
  | .unassignedF3 => Sys2Proof.Machine.execUnassignedF3 s
  | .unassignedF4 => Sys2Proof.Machine.execUnassignedF4 s
  | .unassignedF7 => Sys2Proof.Machine.execUnassignedF7 s
  | .unassignedFA => Sys2Proof.Machine.execUnassignedFA s
  | .unassignedFB => Sys2Proof.Machine.execUnassignedFB s
  | .unassignedFC => Sys2Proof.Machine.execUnassignedFC s
  | .unassignedFF => Sys2Proof.Machine.execUnassignedFF s

end Sys2Proof.Machine
end

