-- ==== Sys2Proof/Machine/Engine.lean ====
section
/-! DEFINITION. Engine.lean: the ROM-dispatch step, the run, and how an instruction is placed where it is
fetched (spec/40_dispatch.md R100 to R107). -/

namespace Sys2Proof.Machine

/-- The instruction stream from PC on: RomRead(PC), RomRead(PC+1), ... up to ROM_LEN, without wrapping
the index (spec/20_memory.md R52, spec/40_dispatch.md R101, R103). -/
def State.stream (s : State) : List Byte := s.rom.drop s.pc.toNat

/-- The advance PC <- mask16(PC + 1 + n) after a handler (spec/40_dispatch.md R105). HLT and fault end
the step before it (R100, R107; log entry 8). -/
def State.advance (s : State) (length : Nat) : State :=
  match s.run with
  | .running => s.addPc length
  | .halted _ => s
  | .faulted _ => s

/-- The advance on the answer of a handler. -/
def advanced (length : Nat) : Result → Result
  | .next t => .next (t.advance length)
  | .fault r => .fault r
  | .refused r => .refused r

/-- Step() of spec/40_dispatch.md R100, defined while the run state is RUNNING: end of stream (R101),
truncated instruction (R103), or the handler and the advance (R104, R105). -/
def romStep (s : State) : Result :=
  match s.run with
  | .running =>
    match decode s.stream with
    | .error .endOfStream => .next (s.endRun (.halted .endOfRom))
    | .error .truncated => .next (s.endRun (.faulted .truncatedInstruction))
    | .ok (i, _) => advanced i.length (exec i s)
  | .halted _ => .fault .runEnded
  | .faulted _ => .fault .runEnded

/-- A run from a state: steps while the run state is RUNNING, under fuel (spec/40_dispatch.md R106).
A RUNNING answer says only that the fuel ran out. -/
def runFor : Nat → State → Result
  | 0, s => .next s
  | k + 1, s =>
    match s.run with
    | .running =>
      match romStep s with
      | .next t => runFor k t
      | .fault r => .fault r
      | .refused r => .refused r
    | .halted _ => .next s
    | .faulted _ => .next s

/-- A byte stream with given bytes at an index, no longer than the 65536 bytes of
spec/20_memory.md R52; indices below it that did not exist hold 0x00. -/
def placeBytes (rom : List Byte) (at_ : Nat) (bytes : List Byte) : List Byte :=
  ((rom.take at_ ++ List.replicate (at_ - rom.length) 0x00) ++ bytes ++ rom.drop (at_ + bytes.length)).take
    65536

/-- The state with bytes placed in ROM at PC and the core running, so that the next step fetches them
(log entry 3). -/
def State.placeAtPc (s : State) (bytes : List Byte) : State :=
  { s with rom := placeBytes s.rom s.pc.toNat bytes, run := .running }

end Sys2Proof.Machine
end

