-- ==== Sys2Proof/Machine/Step.lean ====
section
/-! DEFINITION. Step.lean: the step of the core, and the placing of one instruction word for it. -/

namespace Sys2Proof.Machine

/-- One ROM-dispatch step (spec/40_dispatch.md R100). -/
def step (s : State) : Host.Outcome State Fault Refusal := romStep s

/-- The state with the instruction whose bits are w (numbered as spec/opcode_table.json numbers them, the
bits above nbits 0) where the next step fetches (log entry 3). -/
def State.withFetchWord (s : State) (nbits w : Nat) : State :=
  s.placeAtPc (tableBytes (w % 2 ^ nbits))

end Sys2Proof.Machine
end

