-- ==== Sys2Proof/Machine/Access.lean ====
section
/-! DEFINITION. Access.lean: the MEMORY accesses of an instruction, in order (the table of
spec/20_memory.md R57). The accesses are no part of the state; the order is the spec's decision D17
(log entry 14). -/

namespace Sys2Proof.Machine

/-- One access of one byte of MEMORY (spec/20_memory.md R56). -/
inductive Access where
  | read (a : Word)
  | write (a : Word)
  deriving DecidableEq, Repr

/-- Whether an access writes. -/
def Access.isWrite : Access → Bool
  | .read _ => false
  | .write _ => true

/-- The pointer fetches of ZPXI and ZPIY: low byte, then high byte (spec/20_memory.md R57). -/
def State.pointerReads (s : State) : MemOperand → List Access
  | .zpxi o =>
    [.read (zext8 (zpIndexed o s.x)), .read (hiAddr s.params.zpPtrWrap (zpIndexed o s.x))]
  | .zpiy o => [.read (zext8 o), .read (hiAddr s.params.zpPtrWrap o)]
  | .zp _ | .zpx _ | .zpy _ | .abs _ | .absx _ | .absy _ => []

/-- The accesses of a read instruction (spec/20_memory.md R57). -/
def State.readAccesses (s : State) : ValueOperand → List Access
  | .imm _ => []
  | .mem m => s.pointerReads m ++ [.read (s.ea m)]

/-- The accesses of a store (spec/20_memory.md R57). -/
def State.storeAccesses (s : State) (m : MemOperand) : List Access :=
  s.pointerReads m ++ [.write (s.ea m)]

/-- The accesses of a read-modify-write instruction (spec/20_memory.md R57). -/
def State.modifyAccesses (s : State) (m : MemOperand) : List Access :=
  s.pointerReads m ++ [.read (s.ea m), .write (s.ea m)]

/-- The accesses of a shift or rotate: none on the accumulator (spec/20_memory.md R57). -/
def State.shiftAccesses (s : State) : ShiftOperand → List Access
  | .acc => []
  | .mem m => s.modifyAccesses m

/-- The MEMORY accesses of an instruction in a state, in order (spec/20_memory.md R57). Branches,
implied forms, NOP, HLT and unassigned opcodes have none. -/
def State.accesses (s : State) (i : Instr) : List Access :=
  match i with
  | .lda op | .ldx op | .ldy op | .adc op | .sbc op | .cmp op | .cpx op | .cpy op
  | .and op | .ora op | .eor op => s.readAccesses op
  | .sta m | .stx m | .sty m => s.storeAccesses m
  | .asl t | .lsr t | .rol t | .ror t => s.shiftAccesses t
  | .inc m | .dec m => s.modifyAccesses m
  | .pha | .php => [.write (stackAddress s.sp)]
  | .pla | .plp => [.read (stackAddress (inc8 s.sp))]
  | _ => []

end Sys2Proof.Machine
end

