-- ==== Sys2Proof/Machine/HostPort.lean ====
section
/-! DEFINITION. HostPort.lean: the direct-dispatch port (spec/40_dispatch.md R108 to R111) and the host
port (R112): everything the outside world can do to the core, between steps. -/

namespace Sys2Proof

/-- The token of a mnemonic (spec/30_encoding.md R82), in upper case (R90; log entry 11). -/
def Mnemonic.token : Mnemonic → String
  | .lda => "LDA"
  | .ldx => "LDX"
  | .ldy => "LDY"
  | .sta => "STA"
  | .stx => "STX"
  | .sty => "STY"
  | .tax => "TAX"
  | .tay => "TAY"
  | .txa => "TXA"
  | .tya => "TYA"
  | .tsx => "TSX"
  | .txs => "TXS"
  | .adc => "ADC"
  | .sbc => "SBC"
  | .cmp => "CMP"
  | .cpx => "CPX"
  | .cpy => "CPY"
  | .and => "AND"
  | .ora => "ORA"
  | .eor => "EOR"
  | .asl => "ASL"
  | .lsr => "LSR"
  | .rol => "ROL"
  | .ror => "ROR"
  | .inc => "INC"
  | .dec => "DEC"
  | .inx => "INX"
  | .iny => "INY"
  | .dex => "DEX"
  | .dey => "DEY"
  | .pha => "PHA"
  | .pla => "PLA"
  | .php => "PHP"
  | .plp => "PLP"
  | .clc => "CLC"
  | .sec => "SEC"
  | .cli => "CLI"
  | .sei => "SEI"
  | .cld => "CLD"
  | .sed => "SED"
  | .clv => "CLV"
  | .nop => "NOP"
  | .bcc => "BCC"
  | .bcs => "BCS"
  | .beq => "BEQ"
  | .bne => "BNE"
  | .bmi => "BMI"
  | .bpl => "BPL"
  | .bvc => "BVC"
  | .bvs => "BVS"

/-- The 50 mnemonics (spec/30_encoding.md R82). -/
def Mnemonic.all : List Mnemonic :=
  [.lda, .ldx, .ldy, .sta, .stx, .sty, .tax, .tay, .txa, .tya,
   .tsx, .txs, .adc, .sbc, .cmp, .cpx, .cpy, .and, .ora, .eor,
   .asl, .lsr, .rol, .ror, .inc, .dec, .inx, .iny, .dex, .dey,
   .pha, .pla, .php, .plp, .clc, .sec, .cli, .sei, .cld, .sed,
   .clv, .nop, .bcc, .bcs, .beq, .bne, .bmi, .bpl, .bvc, .bvs]

/-- The mnemonic a token names, if it is one of the 50 (spec/40_dispatch.md R109). -/
def Mnemonic.ofToken (token : String) : Option Mnemonic :=
  Mnemonic.all.find? (fun mn => mn.token == token)

namespace Machine

/-- A direct-dispatch request (spec/40_dispatch.md R108): a mnemonic token, a mode tag, and the
already-resolved operand, absent where the mode has none. -/
structure Request where
  mnemonic : String
  mode : Mode
  operand : Option Nat
  deriving DecidableEq, Repr

/-- The operand checks of spec/40_dispatch.md R109: absent where n >= 1, present where n = 0, above 255
for n = 1, above 65535 for n = 2. An operand of n bytes is below 256 to the n. -/
def checkOperand (n : Nat) (operand : Option Nat) : Except Refusal Word :=
  match operand with
  | none => if n = 0 then .ok 0 else .error .operandMissing
  | some v =>
    if n = 0 then .error .operandSurplus
    else if v < 256 ^ n then .ok (BitVec.ofNat 16 v)
    else .error .operandOutOfRange

/-- The validation of spec/40_dispatch.md R109, in its order (spec/60_exceptions.md R253): mnemonic, pair,
operand; then the instruction the request stands for. -/
def Request.resolve (r : Request) : Except Refusal Instr :=
  match Mnemonic.ofToken r.mnemonic with
  | none => .error .unknownMnemonic
  | some mn =>
    match opcodeOf mn r.mode with
    | none => .error .unsupportedCombination
    | some code =>
      match checkOperand r.mode.operandBytes r.operand with
      | .error e => .error e
      | .ok o => .ok ((opcodeShape code).build o)

/-- Direct dispatch: the handler alone. It does not fetch, does not read or write `run`, does not advance
PC (spec/40_dispatch.md R108); a bad request changes nothing (R110). -/
def directDispatch (r : Request) (s : State) : Result :=
  match r.resolve with
  | .error e => .refused e
  | .ok i => exec i s

/-- The registers of eight bits that the host reads and writes (spec/40_dispatch.md R112). -/
inductive Reg where
  | a | x | y | s | p
  deriving DecidableEq, Repr

/-- The host's read of a register: no effect (spec/40_dispatch.md R112). -/
def State.getReg (s : State) : Reg → Byte
  | .a => s.a
  | .x => s.x
  | .y => s.y
  | .s => s.sp
  | .p => s.p

/-- Register <- v. -/
def State.setReg (s : State) (r : Reg) (v : Byte) : State :=
  match r with
  | .a => s.setA v
  | .x => s.setX v
  | .y => s.setY v
  | .s => s.setS v
  | .p => s.setP v

/-- Reset (spec/70_reset_and_hazards.md R270): ROM and the parameters stay. -/
def State.hostReset (s : State) : State := .afterReset s.params s.rom

/-- What the host can do (spec/40_dispatch.md R112). -/
inductive HostAction where
  /-- Supply ROM, before the run: it fixes the instruction stream and nothing else. -/
  | supplyRom (rom : List Byte)
  | reset
  /-- Read a register, PC or MEMORY[a]: no effect; the values are `State.getReg`, `State.pc`,
  `State.readByte`. -/
  | read
  | writeReg (r : Reg) (v : Int)
  | writePc (v : Int)
  /-- One bit of P inverted. -/
  | invertFlag (f : Flag)
  /-- One bit of P set to a value (log entry 13). -/
  | assignFlag (f : Flag) (v : Bool)
  | writeMem (a : Word) (v : Int)
  | dispatch (r : Request)
  | step
  /-- A run, under fuel. -/
  | run (fuel : Nat)
  deriving DecidableEq, Repr

/-- The effect of a host action, between steps (spec/40_dispatch.md R112); written values are masked. When
ROM may be supplied is a matter of the session (`sessionAct`). -/
def hostAct (act : HostAction) (s : State) : Result :=
  match act with
  | .supplyRom rom =>
    if rom.length ≤ 65536 then .next (s.setRom rom) else .refused .romTooLong
  | .reset => .next s.hostReset
  | .read => .next s
  | .writeReg r v => .next (s.setReg r (mask8 v))
  | .writePc v => .next (s.setPc (mask16 v))
  | .invertFlag f => .next (s.setFlag f (!s.flag f))
  | .assignFlag f v => .next (s.setFlag f v)
  | .writeMem a v => .next (s.writeByte a (mask8 v))
  | .dispatch r => directDispatch r s
  | .step => Machine.step s
  | .run fuel =>
    match s.run with
    | .running => runFor fuel s
    | .halted _ => .fault .runEnded
    | .faulted _ => .fault .runEnded

/-- The core as the host holds it: its state, and whether a run is in progress, which the host knows and
the state does not say (log entry 7). -/
structure HostSession where
  state : State
  inRun : Bool
  deriving DecidableEq, Repr

/-- Whether a run is in progress after an action that reached a state (log entry 7): a requested step or run
begins one, which lasts while the core is RUNNING; a reset ends it. -/
def HostAction.inRunAfter (act : HostAction) (inRun : Bool) (t : State) : Bool :=
  match act with
  | .reset => false
  | .step | .run _ => decide (t.run = .running)
  | .supplyRom _ | .read | .writeReg _ _ | .writePc _ | .invertFlag _ | .assignFlag _ _ | .writeMem _ _
  | .dispatch _ => inRun

/-- Whether an action is allowed (the last column of spec/40_dispatch.md R112): ROM is supplied before the
run only. -/
def HostAction.allowed (act : HostAction) (inRun : Bool) : Bool :=
  match act with
  | .supplyRom _ => !inRun
  | .reset | .read | .writeReg _ _ | .writePc _ | .invertFlag _ | .assignFlag _ _ | .writeMem _ _
  | .dispatch _ | .step | .run _ => true

/-- A host action in a session: its effect where it is allowed, and a refusal with no change where it is
not (spec/40_dispatch.md R112, spec/10_state.md R38). That a step needs a RUNNING core is in `hostAct`. -/
def sessionAct (act : HostAction) (h : HostSession) : Host.Outcome HostSession Fault Refusal :=
  if act.allowed h.inRun then
    match hostAct act h.state with
    | .next t => .next ⟨t, act.inRunAfter h.inRun t⟩
    | .fault r => .fault r
    | .refused r => .refused r
  else .refused .runInProgress

end Machine

end Sys2Proof
end

