-- ==== Sys2Proof/Machine/Assembly.lean ====
section
/-! DEFINITION. Assembly.lean: the assembly text of the core's programs: lines, literals, operand forms,
byte emission and errors (spec/30_encoding.md R90 to R97). It is a pure function beside the core, which
never reads text (spec/00_scope.md R5; log entry 15). -/

namespace Sys2Proof.Assembly

open Sys2Proof.Machine

/-- The errors of spec/30_encoding.md R96. Each is a hard stop for its line. -/
inductive AsmError where
  | numericParseError
  | addressingModeMismatch
  | unsupportedCombination
  | unknownMnemonic
  deriving DecidableEq, Repr

/-- The value of a digit in a base up to 16. Hexadecimal digits are taken in upper and in lower case:
DESIGN CHOICE, since spec/30_encoding.md R91 does not say (log entry 15). -/
def digit (base : Nat) (c : Char) : Option Nat :=
  let n := c.toNat
  let d := if 48 ≤ n ∧ n ≤ 57 then n - 48
    else if 65 ≤ n ∧ n ≤ 70 then n - 55
    else if 97 ≤ n ∧ n ≤ 102 then n - 87
    else 16
  if d < base then some d else none

/-- All of the digits, most significant first, or nothing: it never partially parses
(spec/30_encoding.md R91). -/
def digitsFrom (base : Nat) : Nat → List Char → Option Nat
  | acc, [] => some acc
  | acc, c :: cs =>
    match digit base c with
    | some d => digitsFrom base (acc * base + d) cs
    | none => none

/-- A literal by its width (spec/30_encoding.md R92): of eight bits, of sixteen, or of no mode's width. -/
inductive Literal where
  | byte (b : Byte)
  | word (w : Word)
  | noWidth
  deriving DecidableEq, Repr

/-- A literal of a base whose eight-bit form has n8 digits and sixteen-bit form n16
(spec/30_encoding.md R92); a value above the width matches no mode. -/
def literalOf (base n8 n16 : Nat) (digits : List Char) : Except AsmError Literal :=
  if digits.isEmpty then .error .numericParseError
  else
    match digitsFrom base 0 digits with
    | none => .error .numericParseError
    | some v =>
      if digits.length = n8 ∧ v < 256 then .ok (.byte (BitVec.ofNat 8 v))
      else if digits.length = n16 ∧ v < 65536 then .ok (.word (BitVec.ofNat 16 v))
      else .ok .noWidth

/-- A numeric literal: dollar is hexadecimal, percent is binary, anything else decimal
(spec/30_encoding.md R91, R92). -/
def parseLiteral : List Char → Except AsmError Literal
  | '$' :: ds => literalOf 16 2 4 ds
  | '%' :: ds => literalOf 2 8 16 ds
  | ds => literalOf 10 3 5 ds

/-- A resolved operand: the mode tag and the operand of that mode (spec/30_encoding.md R93). -/
structure Resolved where
  mode : Mode
  operand : Option Nat
  deriving DecidableEq, Repr

/-- The mode of a literal, by its width; none where the width has no mode there. -/
def ofLiteral (text : List Char) (byteMode wordMode : Option Mode) : Except AsmError Resolved :=
  match parseLiteral text with
  | .error e => .error e
  | .ok (.byte b) =>
    match byteMode with
    | some m => .ok ⟨m, some b.toNat⟩
    | none => .error .addressingModeMismatch
  | .ok (.word w) =>
    match wordMode with
    | some m => .ok ⟨m, some w.toNat⟩
    | none => .error .addressingModeMismatch
  | .ok .noWidth => .error .addressingModeMismatch

/-- The mode that a mnemonic takes with no operand: IMP, STK or ACC (spec/30_encoding.md R93). -/
def bareMode (mn : Mnemonic) : Mode :=
  if mn.supports .acc then .acc else if mn.supports .stk then .stk else .imp

/-- A token without its last character, if that is the given one. -/
def dropLastChar (c : Char) (t : List Char) : Option (List Char) :=
  match t.reverse with
  | d :: rest => if d = c then some rest.reverse else none
  | [] => none

/-- One operand token (spec/30_encoding.md R93): A, immediate, indirect, or a plain literal; after a
branch mnemonic an 8-bit literal is REL, never ZP. A 16-bit literal after a branch mnemonic is
AddressingModeMismatch, ABS being no candidate there: DESIGN CHOICE, since R93 and R96 leave open whether
it is ABS and then UnsupportedCombination (log entry 15). -/
def resolveOne (mn : Mnemonic) : List Char → Except AsmError Resolved
  | ['A'] => .ok ⟨.acc, none⟩
  | '#' :: t => ofLiteral t (some .imm) none
  | '(' :: t =>
    match dropLastChar ')' t with
    | some inner => ofLiteral inner (some .zpi) (some .absi)
    | none => .error .addressingModeMismatch
  | t => if mn.supports .rel then ofLiteral t (some .rel) none else ofLiteral t (some .zp) (some .abs)

/-- Two operand tokens (spec/30_encoding.md R93): indexed, indexed-indirect, indirect-indexed. The index
register name is matched without regard to case, and before the literal is read: a wrong index is
AddressingModeMismatch whatever the literal is (DESIGN CHOICE, log entry 15). -/
def resolveTwo : List Char → List Char → Except AsmError Resolved
  | '(' :: t, index =>
    match dropLastChar ')' t with
    | some inner =>
      if index = ['Y'] ∨ index = ['y'] then ofLiteral inner (some .zpiy) none
      else .error .addressingModeMismatch
    | none =>
      if index = ['X', ')'] ∨ index = ['x', ')'] then ofLiteral t (some .zpxi) (some .absxi)
      else .error .addressingModeMismatch
  | t, index =>
    if index = ['X'] ∨ index = ['x'] then ofLiteral t (some .zpx) (some .absx)
    else if index = ['Y'] ∨ index = ['y'] then ofLiteral t (some .zpy) (some .absy)
    else .error .addressingModeMismatch

/-- The mode and operand of the operand tokens of a line: 0, 1 or 2 of them (spec/30_encoding.md R90, R93). -/
def resolve (mn : Mnemonic) : List (List Char) → Except AsmError Resolved
  | [] => .ok ⟨bareMode mn, none⟩
  | [t] => resolveOne mn t
  | [t, index] => resolveTwo t index
  | _ => .error .addressingModeMismatch

/-- The operand bytes of a mode: n of them, low byte first, whatever the value (spec/30_encoding.md R94). -/
def operandBytesOf (m : Mode) (operand : Option Nat) : List Byte :=
  let v := operand.getD 0
  match m.operandBytes with
  | 0 => []
  | 1 => [BitVec.ofNat 8 v]
  | _ => [BitVec.ofNat 8 v, BitVec.ofNat 8 (v / 256)]

/-- The bytes of a mnemonic and its operand tokens (spec/30_encoding.md R94, R96). Where a line meets
several errors the first of these is reported: UnknownMnemonic, an error of the operands,
UnsupportedCombination. DESIGN CHOICE, since spec/30_encoding.md R96 and spec/60_exceptions.md R251 give
no order (log entry 15). -/
def assembleTokens (mnemonic : List Char) (operands : List (List Char)) :
    Except AsmError (List Byte) :=
  match Mnemonic.ofToken (String.ofList mnemonic) with
  | none => .error .unknownMnemonic
  | some mn =>
    match resolve mn operands with
    | .error e => .error e
    | .ok r =>
      match opcodeOf mn r.mode with
      | none => .error .unsupportedCombination
      | some code => .ok (code :: operandBytesOf r.mode r.operand)

/-- Space, tab or carriage return. -/
def blank (c : Char) : Bool := c == ' ' || c == '\t' || c == '\r'

/-- The text before the first character of a kind, and the text after it if there is one. -/
def cut (p : Char → Bool) : List Char → List Char × Option (List Char)
  | [] => ([], none)
  | c :: cs => if p c then ([], some cs) else ((c :: (cut p cs).1), (cut p cs).2)

/-- The pieces of a text between characters of a kind. -/
def pieces (p : Char → Bool) : List Char → List (List Char)
  | [] => [[]]
  | c :: cs =>
    match pieces p cs with
    | piece :: more => if p c then [] :: piece :: more else (c :: piece) :: more
    | [] => if p c then [[], []] else [[c]]

/-- A text without blanks around it. -/
def trim (t : List Char) : List Char := ((t.dropWhile blank).reverse.dropWhile blank).reverse

/-- The operand tokens of the text after a mnemonic: separated by a comma if there is one, else by
blanks (spec/30_encoding.md R90). -/
def operandTokens (t : List Char) : List (List Char) :=
  if t.contains ',' then (pieces (· == ',') t).map trim
  else (pieces blank t).filter (fun piece => !piece.isEmpty)

/-- The mnemonic token and the operand tokens of a line; none of an empty line. A semicolon begins a comment
(spec/30_encoding.md R90). -/
def lineTokens (line : List Char) : Option (List Char × List (List Char)) :=
  match trim (cut (· == ';') line).1 with
  | [] => none
  | c :: cs => some ((cut blank (c :: cs)).1, operandTokens (trim ((cut blank (c :: cs)).2.getD [])))

/-- One line: no bytes for an empty line, else the instruction's bytes (spec/30_encoding.md R90). A label
line is no instruction of this spec (R95). -/
def assembleLine (line : List Char) : Except AsmError (List Byte) :=
  match lineTokens line with
  | none => .ok []
  | some (mnemonic, operands) => assembleTokens mnemonic operands

/-- The lines of a program, one after another; the first error is the answer (spec/30_encoding.md R96 calls
an error a hard stop for its line; that the lines after it give no bytes is a DESIGN CHOICE, log
entry 15). -/
def assembleLines : List (List Char) → Except AsmError (List Byte)
  | [] => .ok []
  | line :: more =>
    match assembleLine line with
    | .error e => .error e
    | .ok bytes =>
      match assembleLines more with
      | .error e => .error e
      | .ok rest => .ok (bytes ++ rest)

/-- A program text: line-oriented (spec/30_encoding.md R90). -/
def assemble (text : String) : Except AsmError (List Byte) :=
  assembleLines (pieces (· == '\n') text.toList)

end Sys2Proof.Assembly
end

