-- ==== Sys2Proof/Safety.lean ====
section
/-! DEFINITION. Safety.lean: what counts as a sound state and a safe run, in the terms claims use. -/

namespace Sys2Proof

open Machine

/-- The invariant of the state: MEMORY is in its canonical form and ROM is no longer than the index
range of PC allows (spec/20_memory.md R51, R52). The register ranges of spec/10_state.md R26 are in
the types. -/
def Machine.State.wf (s : State) : Bool := s.mem.wf && decide (s.rom.length ≤ 65536)

/-- The run has not ended in a case the spec gives no meaning (spec/60_exceptions.md R254: "the run did
not fault" is something to prove). -/
def Machine.State.unfaulted (s : State) : Bool :=
  match s.run with
  | .running => true
  | .halted _ => true
  | .faulted _ => false

/-- A run of the given number of steps at most is safe: it answers a next state, and that is not
FAULTED (spec/60_exceptions.md R254). -/
def safeFor (fuel : Nat) (s : State) : Bool :=
  match runFor fuel s with
  | .next t => t.unfaulted
  | .fault _ => false
  | .refused _ => false

end Sys2Proof
end

