-- ==== Sys2Proof/Certificates/Slice0/Obligations.lean ====
section
/-! DEFINITION. Obligations.lean: the statements for the provers, each from the numbered rules of the spec.
A statement about an instruction says that `exec` ANSWERS a next state, what that state holds, and what
it leaves as it was: registers, flags, every byte of MEMORY, the run state, ROM and the parameters. -/

namespace Sys2Proof.Claims

open Sys2Proof.Machine

/-- No byte of MEMORY changed. -/
def MemKept (s t : State) : Prop := ∀ k : Word, t.readByte k = s.readByte k

/-- No byte of MEMORY changed but the one at an address. -/
def MemKeptBut (a : Word) (s t : State) : Prop := ∀ k : Word, k ≠ a → t.readByte k = s.readByte k

/-- No flag changed but those listed. -/
def FlagsKeptBut (written : List Flag) (s t : State) : Prop :=
  ∀ f : Flag, f ∉ written → t.flag f = s.flag f

/-- The run state, ROM and the parameters did not change. -/
def ControlKept (s t : State) : Prop := t.run = s.run ∧ t.rom = s.rom ∧ t.params = s.params

/-- Z and N say of a byte whether it is zero and whether its bit 7 is set (spec/42_alu.md R141). -/
def ZNSay (r : Byte) (t : State) : Prop :=
  (t.flag .z = true ↔ r.toNat = 0) ∧ (t.flag .n = true ↔ 128 ≤ r.toNat)

/-- The carry as a number. -/
def carryIn (s : State) : Nat := if s.flag .c = true then 1 else 0

/-- The 112 unassigned bytes, as spec/30_encoding.md R86 lists them. -/
def unassignedBytes : List Byte :=
  [0x02, 0x03, 0x04, 0x07, 0x0B, 0x0C, 0x0F, 0x12, 0x13, 0x14, 0x17, 0x1A, 0x1B, 0x1C, 0x1F,
   0x20, 0x22, 0x23, 0x24, 0x27, 0x2B, 0x2C, 0x2F, 0x32, 0x33, 0x34, 0x37, 0x3A, 0x3B, 0x3C, 0x3F]
  ++ [0x40, 0x42, 0x43, 0x44, 0x47, 0x4B, 0x4C, 0x4F, 0x52, 0x53, 0x54, 0x57, 0x5A, 0x5B, 0x5C, 0x5F,
   0x60, 0x62, 0x63, 0x64, 0x67, 0x6B, 0x6C, 0x6F, 0x72, 0x73, 0x74, 0x77, 0x7A, 0x7B, 0x7C, 0x7F]
  ++ [0x80, 0x82, 0x83, 0x87, 0x89, 0x8B, 0x8F, 0x92, 0x93, 0x97, 0x9B, 0x9C, 0x9E, 0x9F,
   0xA3, 0xA7, 0xAB, 0xAF, 0xB2, 0xB3, 0xB7, 0xBB, 0xBF]
  ++ [0xC2, 0xC3, 0xC7, 0xCB, 0xCF, 0xD2, 0xD3, 0xD4, 0xD7, 0xDA, 0xDB, 0xDC, 0xDF,
   0xE2, 0xE3, 0xE7, 0xEB, 0xEF, 0xF2, 0xF3, 0xF4, 0xF7, 0xFA, 0xFB, 0xFC, 0xFF]

/-- The eight branches with the flag each tests and the value it is taken on
(spec/48_branches.md R236 to R243). -/
def branches : List ((Byte → Instr) × Flag × Bool) :=
  [(Instr.bcc, Flag.c, false), (Instr.bcs, Flag.c, true), (Instr.beq, Flag.z, true),
   (Instr.bne, Flag.z, false), (Instr.bmi, Flag.n, true), (Instr.bpl, Flag.n, false),
   (Instr.bvc, Flag.v, false), (Instr.bvs, Flag.v, true)]

/-- The seven flag operations with the bit each writes and its value (spec/47_flags_nop.md R220 to R226). -/
def flagOperations : List (Instr × Flag × Bool) :=
  [(Instr.clc, Flag.c, false), (Instr.sec, Flag.c, true), (Instr.cli, Flag.i, false),
   (Instr.sei, Flag.i, true), (Instr.cld, Flag.d, false), (Instr.sed, Flag.d, true),
   (Instr.clv, Flag.v, false)]

/-- The column of a flag in the matrix of spec/42_alu.md R142: the mnemonics that write it, but for the
compares' N. -/
def flagWriters : Flag → List Mnemonic
  | .n | .z =>
    [.lda, .ldx, .ldy, .tax, .tay, .txa, .tya, .tsx, .pla, .and, .ora, .eor, .inc, .dec, .inx, .iny,
     .dex, .dey, .asl, .lsr, .rol, .ror, .adc, .sbc, .plp]
  | .c => [.asl, .lsr, .rol, .ror, .adc, .sbc, .cmp, .cpx, .cpy, .clc, .sec, .plp]
  | .v => [.adc, .sbc, .clv, .plp]
  | .d => [.cld, .sed, .plp]
  | .i => [.cli, .sei, .plp]
  | .b | .u => [.plp]

/-- Whether a mnemonic may write a flag under a policy (spec/42_alu.md R142, R148): the matrix, the
compares' Z, and their N under diff_bit7. -/
def mayWriteFlag (policy : CmpNPolicy) (f : Flag) (mn : Mnemonic) : Prop :=
  mn ∈ flagWriters f ∨
  (mn ∈ [Mnemonic.cmp, .cpx, .cpy] ∧ (f = .z ∨ (f = .n ∧ policy = .diffBit7)))

/-- A compare of a register byte with an operand byte: C and Z of the SIGNED comparison, N by policy, no
other flag, no register, no byte of MEMORY (spec/42_alu.md R148). -/
def ComparesTo (i : Instr) (reg m : Byte) (s : State) : Prop :=
  ∃ t, exec i s = .next t ∧
    (t.flag .c = true ↔ m.toInt ≤ reg.toInt) ∧ (t.flag .z = true ↔ reg = m) ∧
    (s.params.cmpNPolicy = .unchanged → t.flag .n = s.flag .n) ∧
    (s.params.cmpNPolicy = .diffBit7 →
      (t.flag .n = true ↔ 128 ≤ ((reg.toNat : Int) - m.toNat) % 256)) ∧
    FlagsKeptBut [.c, .z, .n] s t ∧
    t.a = s.a ∧ t.x = s.x ∧ t.y = s.y ∧ t.sp = s.sp ∧ t.pc = s.pc ∧ MemKept s t ∧ ControlKept s t

/-- A shift or rotate of an operand leaves the number r there and the carry c
(spec/45_logic_shift_incdec.md section 2). -/
def ShiftsTo (i : Instr) (op : ShiftOperand) (r : Nat) (c : Prop) (s : State) : Prop :=
  ∃ t, exec i s = .next t ∧
    (t.flag .c = true ↔ c) ∧ (t.flag .z = true ↔ r = 0) ∧ (t.flag .n = true ↔ 128 ≤ r) ∧
    FlagsKeptBut [.c, .z, .n] s t ∧
    (match op with
      | .acc => t.a.toNat = r ∧ MemKept s t
      | .mem m => t.a = s.a ∧ (t.readByte (s.ea m)).toNat = r ∧ MemKeptBut (s.ea m) s t) ∧
    t.x = s.x ∧ t.y = s.y ∧ t.sp = s.sp ∧ t.pc = s.pc ∧ ControlKept s t

/-- The byte a shift or rotate reads, as a number. -/
def shifted (op : ShiftOperand) (s : State) : Nat :=
  match op with
  | .acc => s.a.toNat
  | .mem m => (s.readByte (s.ea m)).toNat

/-- An instruction writes a byte to A and says it in Z and N, and changes nothing else. -/
def SetsA (i : Instr) (r : Byte) (s : State) : Prop :=
  ∃ t, exec i s = .next t ∧ t.a = r ∧ ZNSay r t ∧ FlagsKeptBut [.z, .n] s t ∧
    t.x = s.x ∧ t.y = s.y ∧ t.sp = s.sp ∧ t.pc = s.pc ∧ MemKept s t ∧ ControlKept s t

/-- An instruction writes a byte to X and says it in Z and N, and changes nothing else. -/
def SetsX (i : Instr) (r : Byte) (s : State) : Prop :=
  ∃ t, exec i s = .next t ∧ t.x = r ∧ ZNSay r t ∧ FlagsKeptBut [.z, .n] s t ∧
    t.a = s.a ∧ t.y = s.y ∧ t.sp = s.sp ∧ t.pc = s.pc ∧ MemKept s t ∧ ControlKept s t

/-- An instruction writes a byte to Y and says it in Z and N, and changes nothing else. -/
def SetsY (i : Instr) (r : Byte) (s : State) : Prop :=
  ∃ t, exec i s = .next t ∧ t.y = r ∧ ZNSay r t ∧ FlagsKeptBut [.z, .n] s t ∧
    t.a = s.a ∧ t.x = s.x ∧ t.sp = s.sp ∧ t.pc = s.pc ∧ MemKept s t ∧ ControlKept s t

/-- An instruction stores a byte at an address, and changes nothing else. -/
def Stores (i : Instr) (a : Word) (v : Byte) (s : State) : Prop :=
  ∃ t, exec i s = .next t ∧ t.readByte a = v ∧ MemKeptBut a s t ∧
    t.a = s.a ∧ t.x = s.x ∧ t.y = s.y ∧ t.sp = s.sp ∧ t.p = s.p ∧ t.pc = s.pc ∧ ControlKept s t

/-- INC or DEC: the byte at an address becomes the number r, Z and N say it, nothing else changes. -/
def Modifies (i : Instr) (a : Word) (r : Nat) (s : State) : Prop :=
  ∃ t, exec i s = .next t ∧ (t.readByte a).toNat = r ∧ MemKeptBut a s t ∧
    ZNSay (t.readByte a) t ∧ FlagsKeptBut [.z, .n] s t ∧
    t.a = s.a ∧ t.x = s.x ∧ t.y = s.y ∧ t.sp = s.sp ∧ t.pc = s.pc ∧ ControlKept s t

/-- A push: the byte is written at 0x0100 + S with the old S, then S decrements and wraps; nothing else
changes (spec/46_stack.md R210). -/
def Pushes (i : Instr) (v : Byte) (s : State) : Prop :=
  ∃ t, exec i s = .next t ∧
    (∀ k : Word, k.toNat = 256 + s.sp.toNat → t.readByte k = v) ∧
    (∀ k : Word, k.toNat ≠ 256 + s.sp.toNat → t.readByte k = s.readByte k) ∧
    (t.sp.toNat : Int) = ((s.sp.toNat : Int) - 1) % 256 ∧
    t.a = s.a ∧ t.x = s.x ∧ t.y = s.y ∧ t.p = s.p ∧ t.pc = s.pc ∧ ControlKept s t

/-- The modes of a mnemonic with their opcode bytes, as its rule lists them, and no other mode
(**Operands:** of each rule of spec/43_load_store_transfer.md to spec/48_branches.md). -/
def HasOpcodes (mn : Mnemonic) (rows : List (Mode × Byte)) : Prop :=
  (∀ m b, (m, b) ∈ rows → opcodeOf mn m = some b) ∧ ∀ m b, opcodeOf mn m = some b → (m, b) ∈ rows

/-- A state with the same MEMORY bytes at a list of accesses' read addresses. -/
def AgreeOnReads (acc : List Access) (s u : State) : Prop :=
  ∀ k : Word, Access.read k ∈ acc → u.readByte k = s.readByte k

end Sys2Proof.Claims

open Sys2Proof Sys2Proof.Machine Sys2Proof.Claims

/-! ### Encoding -/

/-- Decoding the bytes of a well-formed instruction, whatever follows them, gives it back with every
operand (spec/30_encoding.md R76, R77, R79, R84). -/
def Obligations.DecodeGivesBackEncodedInstruction : Prop :=
  ∀ (i : Instr) (rest : List Byte), i.wellFormed = true →
    ∃ bytes, encode i = some bytes ∧ decode (bytes ++ rest) = .ok (i, rest)

/-- Whatever decodes is well formed and is the encoding of what it decodes to: each byte sequence has one
meaning and no bit of it is dropped (spec/30_encoding.md R76 to R81). -/
def Obligations.DecodedBytesAreTheEncoding : Prop :=
  ∀ (bytes : List Byte) (i : Instr) (rest : List Byte), decode bytes = .ok (i, rest) →
    i.wellFormed = true ∧ ∃ word, encode i = some word ∧ bytes = word ++ rest

/-- The reverse map is total: every opcode byte decodes, to an instruction whose opcode it is
(spec/30_encoding.md R81, R88). -/
def Obligations.EveryOpcodeByteDecodes : Prop :=
  ∀ (op b1 b2 : Byte) (rest : List Byte), ∃ i rest',
    decode (op :: b1 :: b2 :: rest) = .ok (i, rest') ∧ i.entry.opcode = some op

/-- The length of an instruction is a matter of its first byte alone: two streams with the same first
byte that both decode give the same (mnemonic, mode tag) and consume the same number of bytes
(spec/30_encoding.md R79). -/
def Obligations.FirstByteDeterminesLength : Prop :=
  ∀ (op : Byte) (more more' rest rest' : List Byte) (i i' : Instr),
    decode (op :: more) = .ok (i, rest) → decode (op :: more') = .ok (i', rest') →
      i.entry = i'.entry ∧ i.length = i'.length ∧
      more.length = (i.length - 1) + rest.length ∧ more'.length = (i.length - 1) + rest'.length

/-- 0x00 is HLT and each of the 112 listed bytes is an unassigned opcode of its own, one byte long; no
other byte is (spec/30_encoding.md R85, R86). -/
def Obligations.HaltAndUnassignedBytesAreOneByteLong : Prop :=
  (∀ rest, decode (0x00 :: rest) = .ok (.hlt, rest)) ∧
  (∀ b ∈ unassignedBytes, ∀ rest, ∃ i,
    decode (b :: rest) = .ok (i, rest) ∧ i.entry = .unassigned b) ∧
  (∀ (b : Byte) (i : Instr) (more rest : List Byte), b ≠ 0x00 → b ∉ unassignedBytes →
    decode (b :: more) = .ok (i, rest) → ∃ mn m, i.entry = .pair mn m ∧ mn.supports m = true)

/-- The forward map is defined on exactly the supported pairs and no two pairs share a byte
(spec/30_encoding.md R81, R83, R84). -/
def Obligations.ForwardMapIsInjectiveOnSupportedPairs : Prop :=
  (∀ mn m, (opcodeOf mn m).isSome = mn.supports m) ∧
  (∀ mn m mn' m' b, opcodeOf mn m = some b → opcodeOf mn' m' = some b → mn = mn' ∧ m = m')

/-- Words written out from the spec's examples, at least one of each category of spec/30_encoding.md R82,
decode to the instructions they stand for (spec/30_encoding.md R84, R85; spec/40_dispatch.md R107;
spec/95_test_vectors.md T2, T3, T7, T12, T20, T40; spec/96_test_vectors_families.md T69, T127, T155, T199,
T225, T250; spec/45_logic_shift_incdec.md R197, R201). -/
def Obligations.SampleWordsDecode : Prop :=
  decode [0xAD, 0x34, 0x12] = .ok (.lda (.mem (.abs 0x1234)), []) ∧
  decode [0xA1, 0x20] = .ok (.lda (.mem (.zpxi 0x20)), []) ∧
  decode [0x69, 0x50] = .ok (.adc (.imm 0x50), []) ∧
  decode [0xAA] = .ok (.tax, []) ∧
  decode [0x35, 0x10] = .ok (.and (.mem (.zpx 0x10)), []) ∧
  decode [0x3E, 0x00, 0x02] = .ok (.rol (.mem (.absx 0x0200)), []) ∧
  decode [0x48] = .ok (.pha, []) ∧
  decode [0x90, 0xFA] = .ok (.bcc 0xFA, []) ∧
  decode [0x18] = .ok (.clc, []) ∧
  decode [0x02, 0xEA] = .ok (.unassigned02, [0xEA]) ∧
  decode [0x8D, 0x00, 0x02] = .ok (.sta (.abs 0x0200), []) ∧
  decode [0xC9, 0x41] = .ok (.cmp (.imm 0x41), []) ∧
  decode [0xE6, 0x10] = .ok (.inc (.zp 0x10), []) ∧
  decode [0xCA] = .ok (.dex, []) ∧
  decode [0xEA] = .ok (.nop, []) ∧
  decode [0x00] = .ok (.hlt, [])

/-! ### The step and the run -/

/-- A step while RUNNING runs the instruction decoded at PC: its meaning answers a next state, and the step
is that state with PC advanced by the instruction's length, or that state itself where the instruction
ended the run (spec/40_dispatch.md R100, R105). -/
def Obligations.StepRunsTheDecodedInstruction : Prop :=
  ∀ (s : State) (i : Instr) (rest : List Byte), s.run = .running →
    decode (s.rom.drop s.pc.toNat) = .ok (i, rest) →
    ∃ t, exec i s = .next t ∧
      (t.run = .running → step s = .next { t with pc := mask16 (t.pc.toNat + i.length) }) ∧
      (t.run ≠ .running → step s = .next t)

/-- With PC at or past the end of ROM the step halts the run and changes nothing else
(spec/40_dispatch.md R101). -/
def Obligations.StepAtEndOfStreamHalts : Prop :=
  ∀ s : State, s.run = .running → s.rom.length ≤ s.pc.toNat →
    step s = .next { s with run := .halted .endOfRom }

/-- An instruction whose operand bytes are not all in ROM faults the run and changes nothing else: the
index is not wrapped (spec/40_dispatch.md R103, spec/60_exceptions.md R254). -/
def Obligations.StepOnTruncatedInstructionFaults : Prop :=
  ∀ (s : State) (op : Byte), s.run = .running → s.rom[s.pc.toNat]? = some op →
    1 ≤ (opcodeShape op).operandBytes →
    s.rom.length ≤ s.pc.toNat + (opcodeShape op).operandBytes →
    step s = .next { s with run := .faulted .truncatedInstruction }

/-- A 0x00 byte at PC halts the run; PC keeps its index and nothing else changes
(spec/40_dispatch.md R107). -/
def Obligations.StepOnHaltByteHalts : Prop :=
  ∀ s : State, s.run = .running → s.rom[s.pc.toNat]? = some 0x00 →
    step s = .next { s with run := .halted .hlt }

/-- There is no step of a core whose run has ended, by HLT, by the end of ROM or by a fault
(spec/40_dispatch.md R106; spec/93_implementation_defined.md U16). -/
def Obligations.NoStepAfterTheRunEnded : Prop :=
  ∀ s : State, s.run ≠ .running → step s = .fault .runEnded

/-- A step while RUNNING always gives a next state: no instruction, address or byte of ROM stops the core
without an answer (spec/60_exceptions.md R250; spec/30_encoding.md R81). -/
def Obligations.RunningCoreAlwaysSteps : Prop :=
  ∀ s : State, s.run = .running → ∃ t, step s = .next t

/-- The run ends in these ways only, and a step that ends it changes nothing but the run state
(spec/40_dispatch.md R106, spec/60_exceptions.md R254, R255). -/
def Obligations.RunEndsOnlyInTheNamedWays : Prop :=
  ∀ s t : State, s.run = .running → step s = .next t → t.run ≠ .running →
    t = { s with run := t.run } ∧
    ((t.run = .halted .endOfRom ∧ s.rom.length ≤ s.pc.toNat) ∨
     (t.run = .halted .hlt ∧ s.rom[s.pc.toNat]? = some 0x00) ∨
     (t.run = .faulted .unassignedOpcode ∧ s.params.unassignedPolicy = .refuse ∧
       ∃ b ∈ unassignedBytes, s.rom[s.pc.toNat]? = some b) ∨
     (t.run = .faulted .truncatedInstruction ∧
       ∃ op, s.rom[s.pc.toNat]? = some op ∧ 1 ≤ (opcodeShape op).operandBytes ∧
         s.rom.length ≤ s.pc.toNat + (opcodeShape op).operandBytes))

/-- A run is the step repeated while the core is RUNNING: with nothing left of the fuel it is the state
itself; from a RUNNING state it takes one step, which answers a state, and goes on from there; an ended run
stays as it is, whatever the fuel. So a run of j + k steps is a run of j followed by one of k
(spec/40_dispatch.md R106). -/
def Obligations.RunIsTheStepRepeated : Prop :=
  ∀ (k : Nat) (s : State),
    runFor 0 s = .next s ∧
    (s.run = .running → ∃ t, step s = .next t ∧ runFor (k + 1) s = runFor k t) ∧
    (s.run ≠ .running → runFor k s = .next s) ∧
    (∀ (j : Nat) (t : State), runFor j s = .next t → runFor (j + k) s = runFor k t)

/-! ### Invariants -/

/-- Every step keeps MEMORY in its canonical form and ROM within the index range of PC
(spec/20_memory.md R51, R52). -/
def Obligations.StepKeepsTheStateWellFormed : Prop :=
  ∀ s t : State, s.wf = true → step s = .next t → t.wf = true

/-- Every host action keeps it too: pokes, resets, supplied programs, direct dispatches and whole runs
(spec/40_dispatch.md R112, spec/20_memory.md R66). -/
def Obligations.HostActionsKeepTheStateWellFormed : Prop :=
  ∀ (act : HostAction) (s t : State), s.wf = true → hostAct act s = .next t → t.wf = true

/-- The state after reset is well formed, with any parameters and any ROM of at most 65536 bytes
(spec/10_state.md R40, spec/20_memory.md R52). -/
def Obligations.ResetStateIsWellFormed : Prop :=
  State.reset.wf = true ∧
  ∀ (params : Params) (rom : List Byte), rom.length ≤ 65536 → (State.afterReset params rom).wf = true

/-- No step changes ROM or a parameter: stores are never seen by instruction fetch
(spec/20_memory.md R64, spec/10_state.md R38, R41). -/
def Obligations.StepNeverChangesRomOrParameters : Prop :=
  ∀ s t : State, step s = .next t → t.rom = s.rom ∧ t.params = s.params

/-! ### Whole-machine rules -/

/-- Each register is changed only by the instructions the table of spec/10_state.md R22 lists for it; a
shift or rotate changes A only in mode ACC; PC is changed by a branch alone (R25). -/
def Obligations.RegistersAreWrittenOnlyAsListed : Prop :=
  ∀ (i : Instr) (s t : State), exec i s = .next t →
    (t.a ≠ s.a → ∃ mn m, i.entry = .pair mn m ∧
      (mn ∈ [Mnemonic.lda, .txa, .tya, .pla, .adc, .sbc, .and, .ora, .eor] ∨
       (mn ∈ [Mnemonic.asl, .lsr, .rol, .ror] ∧ m = .acc))) ∧
    (t.x ≠ s.x → ∃ mn m, i.entry = .pair mn m ∧ mn ∈ [Mnemonic.ldx, .tax, .tsx, .inx, .dex]) ∧
    (t.y ≠ s.y → ∃ mn m, i.entry = .pair mn m ∧ mn ∈ [Mnemonic.ldy, .tay, .iny, .dey]) ∧
    (t.sp ≠ s.sp → ∃ mn m, i.entry = .pair mn m ∧ mn ∈ [Mnemonic.txs, .pha, .php, .pla, .plp]) ∧
    (t.pc ≠ s.pc → ∃ mn m, i.entry = .pair mn m ∧
      mn ∈ [Mnemonic.bcc, .bcs, .beq, .bne, .bmi, .bpl, .bvc, .bvs])

/-- Each flag is changed only by the instructions that the flag matrix of spec/42_alu.md R142 lists for
it; B and U by PLP alone. -/
def Obligations.FlagsAreWrittenOnlyAsTheMatrixSays : Prop :=
  ∀ (i : Instr) (s t : State) (f : Flag), exec i s = .next t → t.flag f ≠ s.flag f →
    ∃ mn m, i.entry = .pair mn m ∧ mayWriteFlag s.params.cmpNPolicy f mn

/-- An instruction writes at most one byte of MEMORY, the one the access table of spec/20_memory.md R57
lists for it; every other byte reads as before (spec/40_dispatch.md R104). -/
def Obligations.MemoryWritesAreTheListedAccesses : Prop :=
  ∀ (i : Instr) (s t : State), s.mem.wf = true → exec i s = .next t →
    ((s.accesses i).filter Access.isWrite).length ≤ 1 ∧
    ∀ k : Word, Access.write k ∉ s.accesses i → t.readByte k = s.readByte k

/-- What an instruction does depends on no byte of MEMORY but those the access table lists as read: two
states that differ only in MEMORY and agree there take the same accesses, reach the same registers and
run state, and write the same byte (spec/20_memory.md R57). -/
def Obligations.EffectDependsOnlyOnListedReads : Prop :=
  ∀ (i : Instr) (s : State) (mem' : Memory), i.wellFormed = true → s.mem.wf = true → mem'.wf = true →
    AgreeOnReads (s.accesses i) s { s with mem := mem' } →
    ∃ t t', exec i s = .next t ∧ exec i { s with mem := mem' } = .next t' ∧
      State.accesses { s with mem := mem' } i = s.accesses i ∧
      t'.a = t.a ∧ t'.x = t.x ∧ t'.y = t.y ∧ t'.sp = t.sp ∧ t'.p = t.p ∧ t'.pc = t.pc ∧
      t'.run = t.run ∧
      ∀ k : Word, Access.write k ∈ s.accesses i → t'.readByte k = t.readByte k

/-! ### The direct-dispatch port and the host port -/

/-- The two entry points agree: a valid request has the effect of the ROM-dispatch step of the same
instruction on A, X, Y, S, P and MEMORY; only the step advances PC (spec/40_dispatch.md R108, R111). -/
def Obligations.EntryPointsAgree : Prop :=
  ∀ (r : Request) (i : Instr) (s : State) (rest : List Byte),
    r.resolve = .ok i → s.run = .running → decode (s.rom.drop s.pc.toNat) = .ok (i, rest) →
    ∃ t u, directDispatch r s = .next t ∧ step s = .next u ∧
      u.a = t.a ∧ u.x = t.x ∧ u.y = t.y ∧ u.sp = t.sp ∧ u.p = t.p ∧ u.mem = t.mem ∧
      u.pc = mask16 (t.pc.toNat + i.length) ∧ t.run = s.run ∧ u.run = s.run

/-- A valid request is the handler and nothing else, in every state: halted, faulted or RUNNING, whatever ROM
holds. It answers a next state with the run state and ROM as they were, and with another run state and
another ROM it answers the same but for those two: it reads neither (spec/40_dispatch.md R108;
spec/93_implementation_defined.md U16). -/
def Obligations.PortRunsTheHandlerAlone : Prop :=
  ∀ (r : Request) (i : Instr) (s : State), r.resolve = .ok i →
    ∃ t, exec i s = .next t ∧ directDispatch r s = .next t ∧ t.run = s.run ∧ t.rom = s.rom ∧
      ∀ (run : RunState) (rom : List Byte),
        directDispatch r { s with run := run, rom := rom } = .next { t with run := run, rom := rom }

/-- Every well-formed instruction of a mnemonic can be requested: its token, its mode tag and its operand
as a number resolve to it (spec/40_dispatch.md R108, R109). -/
def Obligations.EveryPairCanBeRequested : Prop :=
  ∀ (i : Instr) (mn : Mnemonic) (m : Mode), i.entry = .pair mn m → mn.supports m = true →
    (i.operandBytes = [] → Request.resolve ⟨mn.token, m, none⟩ = .ok i) ∧
    (∀ b, i.operandBytes = [b] → Request.resolve ⟨mn.token, m, some b.toNat⟩ = .ok i) ∧
    (∀ lo hi, i.operandBytes = [lo, hi] →
      Request.resolve ⟨mn.token, m, some (lo.toNat + 256 * hi.toNat)⟩ = .ok i)

/-- The port refuses a bad request, the first failing check of R109 being the reason, and a refusal is no
next state: nothing changes (spec/40_dispatch.md R109, R110; spec/60_exceptions.md R253). The names of the
three operand reasons and the upper-case tokens are the model's choice (log entries 12 and 11). -/
def Obligations.PortRefusesBadRequests : Prop :=
  ∀ (r : Request) (s : State),
    (Mnemonic.ofToken r.mnemonic = none → directDispatch r s = .refused .unknownMnemonic) ∧
    ∀ mn, Mnemonic.ofToken r.mnemonic = some mn →
      (mn.supports r.mode = false → directDispatch r s = .refused .unsupportedCombination) ∧
      (mn.supports r.mode = true →
        (1 ≤ r.mode.operandBytes → r.operand = none → directDispatch r s = .refused .operandMissing) ∧
        (∀ v, r.operand = some v → r.mode.operandBytes = 0 →
          directDispatch r s = .refused .operandSurplus) ∧
        (∀ v, r.operand = some v → r.mode.operandBytes = 1 → 255 < v →
          directDispatch r s = .refused .operandOutOfRange) ∧
        (∀ v, r.operand = some v → r.mode.operandBytes = 2 → 65535 < v →
          directDispatch r s = .refused .operandOutOfRange))

/-- An instruction of an unsupported pair, which no decoding gives, is turned away by name: absence is a
hard error, not an implied default (spec/30_encoding.md R81, spec/40_dispatch.md R109; log entry 6). -/
def Obligations.UnsupportedPairsAreRefused : Prop :=
  ∀ (i : Instr) (s : State), i.wellFormed = false → exec i s = .refused .unsupportedCombination

/-- Host writes: registers take the value modulo 256, PC modulo 65536, a byte of MEMORY modulo 256; one bit
of P is inverted or set; each leaves the rest (spec/40_dispatch.md R112, spec/20_memory.md R66). That the
host can also give a bit the value 0, the last clause at b = false, is the model's reading of "inverted or
set" and not the rule's words (DEDUCED, log entry 13). -/
def Obligations.HostWritesAreMasked : Prop :=
  ∀ (s : State) (v : Int), s.mem.wf = true →
    (∀ r : Reg, ∃ t, hostAct (.writeReg r v) s = .next t ∧ ((t.getReg r).toNat : Int) = v % 256 ∧
      (∀ q, q ≠ r → t.getReg q = s.getReg q) ∧ t.pc = s.pc ∧ MemKept s t ∧ ControlKept s t) ∧
    (∃ t, hostAct (.writePc v) s = .next t ∧ (t.pc.toNat : Int) = v % 65536 ∧
      (∀ q, t.getReg q = s.getReg q) ∧ MemKept s t ∧ ControlKept s t) ∧
    (∀ a : Word, ∃ t, hostAct (.writeMem a v) s = .next t ∧ ((t.readByte a).toNat : Int) = v % 256 ∧
      MemKeptBut a s t ∧ (∀ q, t.getReg q = s.getReg q) ∧ t.pc = s.pc ∧ ControlKept s t) ∧
    (∀ f : Flag, ∃ t, hostAct (.invertFlag f) s = .next t ∧ t.flag f = !s.flag f ∧
      FlagsKeptBut [f] s t ∧ (∀ q, q ≠ .p → t.getReg q = s.getReg q) ∧ t.pc = s.pc ∧
      MemKept s t ∧ ControlKept s t) ∧
    (∀ (f : Flag) (b : Bool), ∃ t, hostAct (.assignFlag f b) s = .next t ∧ t.flag f = b ∧
      FlagsKeptBut [f] s t ∧ (∀ q, q ≠ .p → t.getReg q = s.getReg q) ∧ t.pc = s.pc ∧
      MemKept s t ∧ ControlKept s t)

/-- Supplying ROM, before the run, fixes the instruction stream and nothing else; during a run it is refused
(spec/40_dispatch.md R112). The bound on its length is spec/20_memory.md R52; what counts as a run in
progress and the refusals' names are the model's (log entry 7). -/
def Obligations.SupplyingRomFixesOnlyTheStream : Prop :=
  ∀ (h : HostSession) (rom : List Byte),
    (h.inRun = false → rom.length ≤ 65536 →
      sessionAct (.supplyRom rom) h = .next ⟨{ h.state with rom := rom }, false⟩) ∧
    (h.inRun = false → 65536 < rom.length → sessionAct (.supplyRom rom) h = .refused .romTooLong) ∧
    (h.inRun = true → sessionAct (.supplyRom rom) h = .refused .runInProgress)

/-- No host action during a run changes ROM or a parameter, and none ends the run but a reset, or a step or
a run after which the core is no longer RUNNING (spec/10_state.md R38, R41; spec/40_dispatch.md R112). What
counts as a run in progress is the model's choice (log entry 7). -/
def Obligations.RomStaysDuringARun : Prop :=
  ∀ (act : HostAction) (h g : HostSession), h.inRun = true → sessionAct act h = .next g →
    g.state.rom = h.state.rom ∧ g.state.params = h.state.params ∧
    (g.inRun = false →
      act = .reset ∨ ((act = .step ∨ ∃ fuel, act = .run fuel) ∧ g.state.run ≠ .running))

/-! ### Reset -/

/-- Reset, from any state, ended or not: PC 0, P 0x24, every byte of MEMORY 0x00, RUNNING; A, X, Y, S take
the open parameters RESET_A, RESET_X, RESET_Y, RESET_S, here any values; ROM stays
(spec/70_reset_and_hazards.md R270, spec/10_state.md R40). -/
def Obligations.ResetEstablishesTheInitialState : Prop :=
  ∀ s : State, ∃ t, hostAct .reset s = .next t ∧
    t.pc.toNat = 0 ∧ t.p = 0b00100100 ∧ (∀ k : Word, t.readByte k = 0x00) ∧ t.run = .running ∧
    t.a = s.params.resetA ∧ t.x = s.params.resetX ∧ t.y = s.params.resetY ∧ t.sp = s.params.resetS ∧
    t.rom = s.rom ∧ t.params = s.params

/-- The model's choice (log entries 1 and 3): State.reset takes the spec's simulation defaults for the open
registers and no program; the rest is the spec's (spec/10_state.md R40). -/
def Obligations.ModelResetUsesSimulationDefaults : Prop :=
  State.reset.a = 0x00 ∧ State.reset.x = 0x00 ∧ State.reset.y = 0x00 ∧ State.reset.sp = 0xFF ∧
  State.reset.rom = [] ∧ State.reset.params = Params.default ∧
  State.reset.pc = 0x0000 ∧ State.reset.p = 0x24 ∧ State.reset.run = .running ∧
  ∀ k : Word, State.reset.readByte k = 0x00

/-- The word the host places for a test is what the next step runs (the model's interface, log entry 3). -/
def Obligations.PlacedWordIsTheNextInstruction : Prop :=
  ∀ (s : State) (nbits w : Nat) (i : Instr), s.pc.toNat ≤ 65533 →
    decodeTableWord nbits w = some i →
    (s.withFetchWord nbits w).run = .running ∧
    ∃ rest, decode ((s.withFetchWord nbits w).rom.drop (s.withFetchWord nbits w).pc.toNat) = .ok (i, rest)

/-! ### Addressing -/

/-- The effective address of every memory mode, in numbers (spec/41_addressing.md R126 to R133, R136,
R137). -/
def Obligations.EffectiveAddressOfEveryMode : Prop :=
  ∀ s : State,
    (∀ o, (s.ea (.zp o)).toNat = o.toNat) ∧
    (∀ o, (s.ea (.zpx o)).toNat = (o.toNat + s.x.toNat) % 256) ∧
    (∀ o, (s.ea (.zpy o)).toNat = (o.toNat + s.y.toNat) % 256) ∧
    (∀ o, (s.ea (.abs o)).toNat = o.toNat) ∧
    (∀ o, (s.ea (.absx o)).toNat = (o.toNat + s.x.toNat) % 65536) ∧
    (∀ o, (s.ea (.absy o)).toNat = (o.toNat + s.y.toNat) % 65536) ∧
    (∀ o (ind lo hi : Word), ind.toNat = (o.toNat + s.x.toNat) % 256 → lo = ind →
      hi.toNat = (if s.params.zpPtrWrap = true then (ind.toNat + 1) % 256 else ind.toNat + 1) →
      (s.ea (.zpxi o)).toNat = (s.readByte lo).toNat + 256 * (s.readByte hi).toNat) ∧
    (∀ o (ind lo hi : Word), ind.toNat = o.toNat → lo = ind →
      hi.toNat = (if s.params.zpPtrWrap = true then (ind.toNat + 1) % 256 else ind.toNat + 1) →
      (s.ea (.zpiy o)).toNat =
        ((s.readByte lo).toNat + 256 * (s.readByte hi).toNat + s.y.toNat) % 65536) ∧
    (∀ o, s.val (.imm o) = o) ∧ (∀ m, s.val (.mem m) = s.readByte (s.ea m))

/-! ### Loads, stores, transfers -/

/-- LDA, LDX and LDY, in every mode each supports (spec/43_load_store_transfer.md R160 to R162).
The opcode byte of each mode is the one its rule lists. -/
def Obligations.LoadsSetTheirRegisterAndZN : Prop :=
  HasOpcodes .lda [(.imm, 0xA9), (.zp, 0xA5), (.zpx, 0xB5), (.abs, 0xAD), (.absx, 0xBD), (.absy, 0xB9),
    (.zpxi, 0xA1), (.zpiy, 0xB1)] ∧
  HasOpcodes .ldx [(.imm, 0xA2), (.zp, 0xA6), (.zpy, 0xB6), (.abs, 0xAE), (.absy, 0xBE)] ∧
  HasOpcodes .ldy [(.imm, 0xA0), (.zp, 0xA4), (.zpx, 0xB4), (.abs, 0xAC), (.absx, 0xBC)] ∧
  ∀ (op : ValueOperand) (s : State),
    (Mnemonic.lda.supports op.mode = true → SetsA (.lda op) (s.val op) s) ∧
    (Mnemonic.ldx.supports op.mode = true → SetsX (.ldx op) (s.val op) s) ∧
    (Mnemonic.ldy.supports op.mode = true → SetsY (.ldy op) (s.val op) s)

/-- STA, STX and STY, in every mode each supports: the register's byte at the effective address, no flag
(spec/43_load_store_transfer.md R163 to R165).
The opcode byte of each mode is the one its rule lists. -/
def Obligations.StoresWriteOneByteAndNoFlag : Prop :=
  HasOpcodes .sta [(.zp, 0x85), (.zpx, 0x95), (.abs, 0x8D), (.absx, 0x9D), (.absy, 0x99), (.zpxi, 0x81),
    (.zpiy, 0x91)] ∧
  HasOpcodes .stx [(.zp, 0x86), (.zpy, 0x96), (.abs, 0x8E)] ∧
  HasOpcodes .sty [(.zp, 0x84), (.zpx, 0x94), (.abs, 0x8C)] ∧
  ∀ (m : MemOperand) (s : State), s.mem.wf = true →
    (Mnemonic.sta.supports m.mode = true → Stores (.sta m) (s.ea m) s.a s) ∧
    (Mnemonic.stx.supports m.mode = true → Stores (.stx m) (s.ea m) s.x s) ∧
    (Mnemonic.sty.supports m.mode = true → Stores (.sty m) (s.ea m) s.y s)

/-- TAX, TAY, TXA, TYA, TSX copy and set Z and N; TXS copies and writes no flag
(spec/43_load_store_transfer.md R166 to R171).
The opcode byte of each mode is the one its rule lists. -/
def Obligations.TransfersCopyTheirRegister : Prop :=
  HasOpcodes .tax [(.imp, 0xAA)] ∧
  HasOpcodes .tay [(.imp, 0xA8)] ∧
  HasOpcodes .txa [(.imp, 0x8A)] ∧
  HasOpcodes .tya [(.imp, 0x98)] ∧
  HasOpcodes .tsx [(.imp, 0xBA)] ∧
  HasOpcodes .txs [(.imp, 0x9A)] ∧
  ∀ s : State,
    SetsX .tax s.a s ∧ SetsY .tay s.a s ∧ SetsA .txa s.x s ∧ SetsA .tya s.y s ∧ SetsX .tsx s.sp s ∧
    ∃ t, exec .txs s = .next t ∧ t.sp = s.x ∧ t.a = s.a ∧ t.x = s.x ∧ t.y = s.y ∧ t.p = s.p ∧
      t.pc = s.pc ∧ MemKept s t ∧ ControlKept s t

/-! ### Arithmetic and compare -/

/-- ADC in every mode: the sum modulo 256, C when the 9-bit sum exceeds 255, V by the same-sign rule on the
old A, the operand and the result, Z and N of the result (spec/44_arithmetic_compare.md R180,
spec/42_alu.md R143, R146).
The opcode byte of each mode is the one its rule lists. -/
def Obligations.AdcAddsWithCarry : Prop :=
  HasOpcodes .adc [(.imm, 0x69), (.zp, 0x65), (.zpx, 0x75), (.abs, 0x6D), (.absx, 0x7D), (.absy, 0x79),
    (.zpxi, 0x61), (.zpiy, 0x71)] ∧
  ∀ (op : ValueOperand) (s : State), Mnemonic.adc.supports op.mode = true →
    ∃ t, exec (.adc op) s = .next t ∧
      t.a.toNat = (s.a.toNat + (s.val op).toNat + carryIn s) % 256 ∧
      (t.flag .c = true ↔ 255 < s.a.toNat + (s.val op).toNat + carryIn s) ∧
      (t.flag .v = true ↔
        (s.a.toNat < 128 ↔ (s.val op).toNat < 128) ∧ ¬ (t.a.toNat < 128 ↔ s.a.toNat < 128)) ∧
      ZNSay t.a t ∧ FlagsKeptBut [.c, .z, .v, .n] s t ∧
      t.x = s.x ∧ t.y = s.y ∧ t.sp = s.sp ∧ t.pc = s.pc ∧ MemKept s t ∧ ControlKept s t

/-- SBC in every mode: the difference of the unsigned bytes and the borrow modulo 256, C when it is not
negative, V by the same-sign heuristic with the operand as fetched, Z and N of the result
(spec/44_arithmetic_compare.md R181, spec/42_alu.md R144, R146).
The opcode byte of each mode is the one its rule lists. -/
def Obligations.SbcSubtractsWithBorrow : Prop :=
  HasOpcodes .sbc [(.imm, 0xE9), (.zp, 0xE5), (.zpx, 0xF5), (.abs, 0xED), (.absx, 0xFD), (.absy, 0xF9),
    (.zpxi, 0xE1), (.zpiy, 0xF1)] ∧
  ∀ (op : ValueOperand) (s : State), Mnemonic.sbc.supports op.mode = true →
    ∃ t, exec (.sbc op) s = .next t ∧
      (t.a.toNat : Int) = ((s.a.toNat : Int) - (s.val op).toNat - (1 - carryIn s)) % 256 ∧
      (t.flag .c = true ↔ 0 ≤ (s.a.toNat : Int) - (s.val op).toNat - (1 - carryIn s)) ∧
      (t.flag .v = true ↔
        (s.a.toNat < 128 ↔ (s.val op).toNat < 128) ∧ ¬ (t.a.toNat < 128 ↔ s.a.toNat < 128)) ∧
      ZNSay t.a t ∧ FlagsKeptBut [.c, .z, .v, .n] s t ∧
      t.x = s.x ∧ t.y = s.y ∧ t.sp = s.sp ∧ t.pc = s.pc ∧ MemKept s t ∧ ControlKept s t

/-- After ADC the V flag is exactly signed overflow of the addition, carry in included
(spec/42_alu.md R146 consequence (a)). -/
def Obligations.AdcOverflowIsSignedOverflow : Prop :=
  ∀ (op : ValueOperand) (s t : State), exec (.adc op) s = .next t →
    (t.flag .v = true ↔
      (s.a.toInt + (s.val op).toInt + carryIn s < -128 ∨
       127 < s.a.toInt + (s.val op).toInt + carryIn s))

/-- After SBC the V flag is never set where the subtraction really overflows: the heuristic fires only for
inputs of the same sign, where it cannot (spec/42_alu.md R146 consequence (b)). -/
def Obligations.SbcOverflowFlagExcludesSignedOverflow : Prop :=
  ∀ (op : ValueOperand) (s t : State), exec (.sbc op) s = .next t → t.flag .v = true →
    (s.a.toNat < 128 ↔ (s.val op).toNat < 128) ∧
    -128 ≤ s.a.toInt - (s.val op).toInt - (1 - carryIn s) ∧
    s.a.toInt - (s.val op).toInt - (1 - carryIn s) ≤ 127

/-- ADC and SBC compute with D set exactly what they compute with D clear, and leave D as it was
(spec/42_alu.md R147, spec/10_state.md R33). -/
def Obligations.DecimalFlagHasNoEffect : Prop :=
  ∀ (op : ValueOperand) (s : State) (i : Instr), (i = .adc op ∨ i = .sbc op) →
    i.wellFormed = true →
    ∃ t u, exec i (s.setFlag .d true) = .next t ∧ exec i (s.setFlag .d false) = .next u ∧
      t.a = u.a ∧ t.x = u.x ∧ t.y = u.y ∧ t.sp = u.sp ∧ t.pc = u.pc ∧ t.mem = u.mem ∧
      t.run = u.run ∧ t.flag .d = true ∧ u.flag .d = false ∧
      ∀ f, f ≠ .d → t.flag f = u.flag f

/-- CMP, CPX, CPY in every mode: a SIGNED comparison; N by policy; V and every register unchanged
(spec/44_arithmetic_compare.md R182 to R184, spec/42_alu.md R148).
The opcode byte of each mode is the one its rule lists. -/
def Obligations.ComparesAreSigned : Prop :=
  HasOpcodes .cmp [(.imm, 0xC9), (.zp, 0xC5), (.zpx, 0xD5), (.abs, 0xCD), (.absx, 0xDD), (.absy, 0xD9),
    (.zpxi, 0xC1), (.zpiy, 0xD1)] ∧
  HasOpcodes .cpx [(.imm, 0xE0), (.zp, 0xE4), (.abs, 0xEC)] ∧
  HasOpcodes .cpy [(.imm, 0xC0), (.zp, 0xC4), (.abs, 0xCC)] ∧
  ∀ (op : ValueOperand) (s : State),
    (Mnemonic.cmp.supports op.mode = true → ComparesTo (.cmp op) s.a (s.val op) s) ∧
    (Mnemonic.cpx.supports op.mode = true → ComparesTo (.cpx op) s.x (s.val op) s) ∧
    (Mnemonic.cpy.supports op.mode = true → ComparesTo (.cpy op) s.y (s.val op) s)

/-! ### Logic, shifts, increments -/

/-- AND, ORA, EOR in every mode: each bit of A with the same bit of the operand
(spec/45_logic_shift_incdec.md R190 to R192, spec/42_alu.md R150).
The opcode byte of each mode is the one its rule lists. -/
def Obligations.LogicIsBitwise : Prop :=
  HasOpcodes .and [(.imm, 0x29), (.zp, 0x25), (.zpx, 0x35), (.abs, 0x2D), (.absx, 0x3D), (.absy, 0x39),
    (.zpxi, 0x21), (.zpiy, 0x31)] ∧
  HasOpcodes .ora [(.imm, 0x09), (.zp, 0x05), (.zpx, 0x15), (.abs, 0x0D), (.absx, 0x1D), (.absy, 0x19),
    (.zpxi, 0x01), (.zpiy, 0x11)] ∧
  HasOpcodes .eor [(.imm, 0x49), (.zp, 0x45), (.zpx, 0x55), (.abs, 0x4D), (.absx, 0x5D), (.absy, 0x59),
    (.zpxi, 0x41), (.zpiy, 0x51)] ∧
  ∀ (op : ValueOperand) (s : State),
    (Mnemonic.and.supports op.mode = true → ∃ r, SetsA (.and op) r s ∧
      ∀ k, k < 8 → r.getLsbD k = (s.a.getLsbD k && (s.val op).getLsbD k)) ∧
    (Mnemonic.ora.supports op.mode = true → ∃ r, SetsA (.ora op) r s ∧
      ∀ k, k < 8 → r.getLsbD k = (s.a.getLsbD k || (s.val op).getLsbD k)) ∧
    (Mnemonic.eor.supports op.mode = true → ∃ r, SetsA (.eor op) r s ∧
      ∀ k, k < 8 → r.getLsbD k = (s.a.getLsbD k ^^ (s.val op).getLsbD k))

/-- ASL, LSR, ROL, ROR on A and in every memory mode, in numbers: the result, the bit shifted out in C, Z
and N of the result (spec/45_logic_shift_incdec.md R193 to R196, spec/42_alu.md R149).
The opcode byte of each mode is the one its rule lists. -/
def Obligations.ShiftsMoveOneBitThroughCarry : Prop :=
  HasOpcodes .asl [(.acc, 0x0A), (.zp, 0x06), (.zpx, 0x16), (.abs, 0x0E), (.absx, 0x1E)] ∧
  HasOpcodes .lsr [(.acc, 0x4A), (.zp, 0x46), (.zpx, 0x56), (.abs, 0x4E), (.absx, 0x5E)] ∧
  HasOpcodes .rol [(.acc, 0x2A), (.zp, 0x26), (.zpx, 0x36), (.abs, 0x2E), (.absx, 0x3E)] ∧
  HasOpcodes .ror [(.acc, 0x6A), (.zp, 0x66), (.zpx, 0x76), (.abs, 0x6E), (.absx, 0x7E)] ∧
  ∀ (op : ShiftOperand) (s : State), s.mem.wf = true →
    (Mnemonic.asl.supports op.mode = true →
      ShiftsTo (.asl op) op (2 * shifted op s % 256) (128 ≤ shifted op s) s) ∧
    (Mnemonic.lsr.supports op.mode = true →
      ShiftsTo (.lsr op) op (shifted op s / 2) (shifted op s % 2 = 1) s) ∧
    (Mnemonic.rol.supports op.mode = true →
      ShiftsTo (.rol op) op ((2 * shifted op s + carryIn s) % 256) (128 ≤ shifted op s) s) ∧
    (Mnemonic.ror.supports op.mode = true →
      ShiftsTo (.ror op) op (shifted op s / 2 + 128 * carryIn s) (shifted op s % 2 = 1) s)

/-- INC and DEC in every mode: the byte at the effective address plus or minus 1, modulo 256
(spec/45_logic_shift_incdec.md R197, R198, spec/42_alu.md R151).
The opcode byte of each mode is the one its rule lists. -/
def Obligations.IncDecChangeOneByte : Prop :=
  HasOpcodes .inc [(.zp, 0xE6), (.zpx, 0xF6), (.abs, 0xEE), (.absx, 0xFE)] ∧
  HasOpcodes .dec [(.zp, 0xC6), (.zpx, 0xD6), (.abs, 0xCE), (.absx, 0xDE)] ∧
  ∀ (m : MemOperand) (s : State), s.mem.wf = true →
    (Mnemonic.inc.supports m.mode = true →
      Modifies (.inc m) (s.ea m) (((s.readByte (s.ea m)).toNat + 1) % 256) s) ∧
    (Mnemonic.dec.supports m.mode = true →
      Modifies (.dec m) (s.ea m) (((s.readByte (s.ea m)).toNat + 255) % 256) s)

/-- INX, INY, DEX, DEY: the register plus or minus 1, modulo 256 (spec/45_logic_shift_incdec.md R199 to
R202).
The opcode byte of each mode is the one its rule lists. -/
def Obligations.RegisterIncrementsWrap : Prop :=
  HasOpcodes .inx [(.imp, 0xE8)] ∧
  HasOpcodes .iny [(.imp, 0xC8)] ∧
  HasOpcodes .dex [(.imp, 0xCA)] ∧
  HasOpcodes .dey [(.imp, 0x88)] ∧
  ∀ s : State,
    (∃ r : Byte, r.toNat = (s.x.toNat + 1) % 256 ∧ SetsX .inx r s) ∧
    (∃ r : Byte, r.toNat = (s.y.toNat + 1) % 256 ∧ SetsY .iny r s) ∧
    (∃ r : Byte, r.toNat = (s.x.toNat + 255) % 256 ∧ SetsX .dex r s) ∧
    (∃ r : Byte, r.toNat = (s.y.toNat + 255) % 256 ∧ SetsY .dey r s)

/-! ### The stack -/

/-- PHA pushes A; PHP pushes P with PHP_OR_MASK or-ed in and leaves P (spec/46_stack.md R210, R212, R214).
The opcode byte of each mode is the one its rule lists. -/
def Obligations.PushesWriteAtTheStackPointer : Prop :=
  HasOpcodes .pha [(.stk, 0x48)] ∧
  HasOpcodes .php [(.stk, 0x08)] ∧
  ∀ s : State, s.mem.wf = true → Pushes .pha s.a s ∧ Pushes .php (s.p ||| s.params.phpOrMask) s

/-- PLA loads A from the byte at the incremented S and sets Z and N; PLP loads P from it but for the bits of
PLP_KEEP_MASK, which stay (spec/46_stack.md R211, R213, R215).
The opcode byte of each mode is the one its rule lists. -/
def Obligations.PullsReadAtTheIncrementedStackPointer : Prop :=
  HasOpcodes .pla [(.stk, 0x68)] ∧
  HasOpcodes .plp [(.stk, 0x28)] ∧
  ∀ (s : State) (k : Word), k.toNat = 256 + (s.sp.toNat + 1) % 256 →
    (∃ t, exec .pla s = .next t ∧ t.sp.toNat = (s.sp.toNat + 1) % 256 ∧ t.a = s.readByte k ∧
      ZNSay t.a t ∧ FlagsKeptBut [.z, .n] s t ∧ t.x = s.x ∧ t.y = s.y ∧ t.pc = s.pc ∧
      MemKept s t ∧ ControlKept s t) ∧
    (∃ t, exec .plp s = .next t ∧ t.sp.toNat = (s.sp.toNat + 1) % 256 ∧
      (∀ f : Flag, t.flag f =
        if getFlag s.params.plpKeepMask f = true then s.flag f else getFlag (s.readByte k) f) ∧
      t.a = s.a ∧ t.x = s.x ∧ t.y = s.y ∧ t.pc = s.pc ∧ MemKept s t ∧ ControlKept s t)

/-- A pull after a push with no stack access between gives the byte back and restores S, whatever happened
to the registers in between (spec/46_stack.md R211, spec/95_test_vectors.md T5). -/
def Obligations.PullUndoesPush : Prop :=
  ∀ s t u v : State, s.mem.wf = true → exec .pha s = .next t → u.mem = t.mem → u.sp = t.sp →
    exec .pla u = .next v → v.a = s.a ∧ v.sp = s.sp ∧ v.mem = t.mem

/-- With the masks at 0x00, PLP after PHP with no stack access between restores all of P and S
(spec/46_stack.md R214, R215). -/
def Obligations.PlpUndoesPhp : Prop :=
  ∀ s t u v : State, s.mem.wf = true → s.params.phpOrMask = 0x00 → u.params.plpKeepMask = 0x00 →
    exec .php s = .next t → u.mem = t.mem → u.sp = t.sp →
    exec .plp u = .next v → v.p = s.p ∧ v.sp = s.sp ∧ v.mem = t.mem

/-! ### Flags, NOP, HLT, unassigned opcodes, branches -/

/-- CLC, SEC, CLI, SEI, CLD, SED, CLV write their one bit and nothing else (spec/47_flags_nop.md R220 to
R226).
The opcode byte of each mode is the one its rule lists. -/
def Obligations.FlagOperationsWriteOneBit : Prop :=
  HasOpcodes .clc [(.imp, 0x18)] ∧
  HasOpcodes .sec [(.imp, 0x38)] ∧
  HasOpcodes .cli [(.imp, 0x58)] ∧
  HasOpcodes .sei [(.imp, 0x78)] ∧
  HasOpcodes .cld [(.imp, 0xD8)] ∧
  HasOpcodes .sed [(.imp, 0xF8)] ∧
  HasOpcodes .clv [(.imp, 0xB8)] ∧
  ∀ e ∈ flagOperations, ∀ s : State,
    ∃ t, exec e.1 s = .next t ∧ t.flag e.2.1 = e.2.2 ∧ FlagsKeptBut [e.2.1] s t ∧
      t.a = s.a ∧ t.x = s.x ∧ t.y = s.y ∧ t.sp = s.sp ∧ t.pc = s.pc ∧ MemKept s t ∧ ControlKept s t

/-- NOP changes nothing; HLT changes the run state alone (spec/47_flags_nop.md R227, spec/40_dispatch.md
R107). -/
def Obligations.NopAndHltEffects : Prop :=
  ∀ s : State, exec .nop s = .next s ∧ exec .hlt s = .next { s with run := .halted .hlt }

/-- Each of the 112 unassigned opcodes changes nothing under nop1; under refuse it faults the run and
changes nothing else (spec/47_flags_nop.md R228). -/
def Obligations.UnassignedOpcodesFollowThePolicy : Prop :=
  ∀ (i : Instr) (b : Byte) (s : State), i.entry = .unassigned b →
    b ∈ unassignedBytes ∧
    (s.params.unassignedPolicy = .nop1 → exec i s = .next s) ∧
    (s.params.unassignedPolicy = .refuse →
      exec i s = .next { s with run := .faulted .unassignedOpcode })

/-- Each branch adds its signed displacement to PC exactly when its flag has its value, and changes nothing
else (spec/48_branches.md R235 to R243).
The opcode byte of each mode is the one its rule lists. -/
def Obligations.BranchesAddTheDisplacementWhenTaken : Prop :=
  HasOpcodes .bcc [(.rel, 0x90)] ∧
  HasOpcodes .bcs [(.rel, 0xB0)] ∧
  HasOpcodes .beq [(.rel, 0xF0)] ∧
  HasOpcodes .bne [(.rel, 0xD0)] ∧
  HasOpcodes .bmi [(.rel, 0x30)] ∧
  HasOpcodes .bpl [(.rel, 0x10)] ∧
  HasOpcodes .bvc [(.rel, 0x50)] ∧
  HasOpcodes .bvs [(.rel, 0x70)] ∧
  ∀ e ∈ branches, ∀ (d : Byte) (s : State),
    ∃ t, exec (e.1 d) s = .next t ∧
      (s.flag e.2.1 = e.2.2 → (t.pc.toNat : Int) = (s.pc.toNat + d.toInt) % 65536) ∧
      (s.flag e.2.1 ≠ e.2.2 → t.pc = s.pc) ∧
      t.a = s.a ∧ t.x = s.x ∧ t.y = s.y ∧ t.sp = s.sp ∧ t.p = s.p ∧ MemKept s t ∧ ControlKept s t

/-- The net effect of a branch step on PC, relative to the next instruction (spec/48_branches.md R235). -/
def Obligations.BranchStepTargetsTheNextInstruction : Prop :=
  ∀ e ∈ branches, ∀ (d : Byte) (s : State) (rest : List Byte), s.run = .running →
    decode (s.rom.drop s.pc.toNat) = .ok (e.1 d, rest) →
    ∃ t, step s = .next t ∧
      (s.flag e.2.1 = e.2.2 → (t.pc.toNat : Int) = (s.pc.toNat + 2 + d.toInt) % 65536) ∧
      (s.flag e.2.1 ≠ e.2.2 → t.pc.toNat = (s.pc.toNat + 2) % 65536) ∧
      t.a = s.a ∧ t.x = s.x ∧ t.y = s.y ∧ t.sp = s.sp ∧ t.p = s.p ∧ MemKept s t ∧ ControlKept s t

/-- Every well-formed instruction other than a branch, HLT, and an unassigned opcode under refuse, takes a
step to PC + its length modulo 65536 (spec/10_state.md R25, spec/40_dispatch.md R105). -/
def Obligations.OtherInstructionsAdvanceByTheirLength : Prop :=
  ∀ (s : State) (i : Instr) (rest : List Byte), s.run = .running →
    decode (s.rom.drop s.pc.toNat) = .ok (i, rest) → i ≠ .hlt → (∀ mn, i.entry ≠ .pair mn .rel) →
    (s.params.unassignedPolicy = .nop1 ∨ ∀ b, i.entry ≠ .unassigned b) →
    ∃ t, step s = .next t ∧ t.pc.toNat = (s.pc.toNat + i.length) % 65536 ∧ t.run = .running

/-! ### The assembly notation -/

/-- A line has no bytes exactly when nothing but blanks stands before its comment. A line whose tokens name
a mnemonic, a mode tag and an operand that the direct-dispatch port resolves to an instruction is assembled
to the bytes of that instruction, which the engine's decoder reads back whole: mnemonic, mode, operand size
and byte order agree. A line that has bytes is such a line (spec/30_encoding.md R90, R93, R94, R96). Which
tokens a line has and what they resolve to is the notation of R90 to R93 with the model's choices where it
is open (log entries 11 and 15). -/
def Obligations.AssembledLinesDecode : Prop :=
  ∀ line : List Char,
    (Assembly.assembleLine line = .ok [] ↔ ∀ c ∈ line.takeWhile (· != ';'), Assembly.blank c = true) ∧
    (∀ token operands mn r i, Assembly.lineTokens line = some (token, operands) →
      Mnemonic.ofToken (String.ofList token) = some mn → Assembly.resolve mn operands = .ok r →
      Request.resolve ⟨mn.token, r.mode, r.operand⟩ = .ok i →
      ∃ bytes, Assembly.assembleLine line = .ok bytes ∧ encode i = some bytes ∧
        decode bytes = .ok (i, [])) ∧
    (∀ bytes, Assembly.assembleLine line = .ok bytes → bytes ≠ [] →
      ∃ token operands mn r i, Assembly.lineTokens line = some (token, operands) ∧
        Mnemonic.ofToken (String.ofList token) = some mn ∧ Assembly.resolve mn operands = .ok r ∧
        Request.resolve ⟨mn.token, r.mode, r.operand⟩ = .ok i ∧ decode bytes = .ok (i, []))
end

