-- ==== Sys2Proof/Laws/Assembly.lean ====
section
/-! SUPPORT. Assembly.lean: when a line is empty, what resolved operand tokens hold, and what assembled
tokens emit (spec/30_encoding.md R90 to R96). -/

namespace Sys2Proof.Assembly

open Sys2Proof.Machine

/-- The text before the first character of a kind. -/
theorem cut_fst (p : Char → Bool) (t : List Char) : (cut p t).1 = t.takeWhile (fun c => !p c) := by
  induction t with
  | nil => rfl
  | cons c cs ih =>
    unfold cut
    cases h : p c <;> simp [h, ih]

/-- Dropping a kind of character from the front leaves nothing exactly when there is no other. -/
theorem dropWhile_eq_nil {p : Char → Bool} {t : List Char} : t.dropWhile p = [] ↔ ∀ c ∈ t, p c = true := by
  induction t with
  | nil => simp
  | cons c cs ih => cases h : p c <;> simp [List.dropWhile, h, ih]

/-- Trimming leaves nothing exactly of blanks. -/
theorem trim_eq_nil {t : List Char} : trim t = [] ↔ ∀ c ∈ t, blank c = true := by
  unfold trim
  rw [List.reverse_eq_nil_iff, dropWhile_eq_nil]
  constructor
  · intro h
    rw [← dropWhile_eq_nil]
    cases hd : t.dropWhile blank with
    | nil => rfl
    | cons d ds =>
      have hb : blank d = true := h d (by simp [hd])
      have := List.head?_dropWhile_not blank t
      rw [hd] at this
      simp [hb] at this
  · intro h c hc
    rw [dropWhile_eq_nil.2 h] at hc
    simp at hc

/-- A line has no tokens exactly when only blanks stand before its comment (spec/30_encoding.md R90). -/
theorem lineTokens_eq_none {line : List Char} :
    lineTokens line = none ↔ ∀ c ∈ line.takeWhile (· != ';'), blank c = true := by
  have e : line.takeWhile (· != ';') = (cut (· == ';') line).1 := (cut_fst _ _).symm
  rw [e, ← trim_eq_nil]
  unfold lineTokens
  split <;> simp_all

/-- The tokens of a mnemonic with its operands emit the opcode byte of the pair and the operand bytes, and
nothing else assembles (spec/30_encoding.md R94, R96). -/
theorem assembleTokens_ok {mnemonic : List Char} {operands : List (List Char)} {bytes : List Byte} :
    assembleTokens mnemonic operands = .ok bytes ↔
      ∃ mn r code, Mnemonic.ofToken (String.ofList mnemonic) = some mn ∧ resolve mn operands = .ok r ∧
        opcodeOf mn r.mode = some code ∧ bytes = code :: operandBytesOf r.mode r.operand := by
  unfold assembleTokens
  constructor
  · intro h
    split at h
    · cases h
    · split at h
      · cases h
      · split at h
        · cases h
        · cases h
          exact ⟨_, _, _, by assumption, by assumption, by assumption, rfl⟩
  · rintro ⟨mn, r, code, hm, hr, hc, rfl⟩
    simp only [hm, hr, hc]

/-- A resolved operand fits its mode: absent where the mode has no operand byte, else a number below 256
to the n (spec/30_encoding.md R92, R93). -/
def Resolved.Fits (r : Resolved) : Prop :=
  (r.operand = none ∧ r.mode.operandBytes = 0) ∨
  ∃ v, r.operand = some v ∧ 1 ≤ r.mode.operandBytes ∧ v < 256 ^ r.mode.operandBytes

/-- A literal fits the mode that its width selects. -/
theorem ofLiteral_fits {t : List Char} {byteMode wordMode : Option Mode} {r : Resolved}
    (h : ofLiteral t byteMode wordMode = .ok r)
    (hb : ∀ m, byteMode = some m → m.operandBytes = 1) (hw : ∀ m, wordMode = some m → m.operandBytes = 2) :
    r.Fits := by
  unfold ofLiteral at h
  split at h
  · cases h
  · rename_i b _
    split at h
    · rename_i m
      cases h
      refine .inr ⟨_, rfl, ?_⟩
      have hb := hb m rfl
      have hlt := b.isLt
      simp only [hb]
      omega
    · cases h
  · rename_i w _
    split at h
    · rename_i m
      cases h
      refine .inr ⟨_, rfl, ?_⟩
      have hw := hw m rfl
      have hlt := w.isLt
      simp only [hw]
      omega
    · cases h
  · cases h

/-- What the operand tokens of a line resolve to fits its mode (spec/30_encoding.md R93). -/
theorem resolve_fits {mn : Mnemonic} {operands : List (List Char)} {r : Resolved}
    (h : resolve mn operands = .ok r) : r.Fits := by
  unfold resolve at h
  split at h
  · cases h
    refine .inl ⟨rfl, ?_⟩
    unfold bareMode
    split
    · rfl
    · split <;> rfl
  · unfold resolveOne at h
    repeat' split at h
    all_goals first
      | exact ofLiteral_fits h (by rintro m ⟨⟩; rfl) (by rintro m ⟨⟩; rfl)
      | exact ofLiteral_fits h (by rintro m ⟨⟩; rfl) (by rintro m ⟨⟩)
      | (cases h; exact .inl ⟨rfl, rfl⟩)
      | cases h
  · unfold resolveTwo at h
    repeat' split at h
    all_goals first
      | exact ofLiteral_fits h (by rintro m ⟨⟩; rfl) (by rintro m ⟨⟩; rfl)
      | exact ofLiteral_fits h (by rintro m ⟨⟩; rfl) (by rintro m ⟨⟩)
      | cases h
  · cases h

end Sys2Proof.Assembly
end

