-- ==== Sys2Proof/Laws/Bits.lean ====
section
/-! SUPPORT. Bits.lean: the width functions said in numbers (spec/00_scope.md R10). -/

namespace Sys2Proof

/-- mask8 is the remainder modulo 256. -/
theorem mask8_toNat (v : Int) : ((mask8 v).toNat : Int) = v % 256 := by
  simp only [mask8, BitVec.toNat_ofInt]
  omega

/-- mask16 is the remainder modulo 65536. -/
theorem mask16_toNat (v : Int) : ((mask16 v).toNat : Int) = v % 65536 := by
  simp only [mask16, BitVec.toNat_ofInt]
  omega

/-- Reading a byte as signed and masking it again gives the byte (spec/00_scope.md R10). -/
@[simp] theorem mask8_signed8 (b : Byte) : mask8 (signed8 b) = b := by
  have h := mask8_toNat (signed8 b)
  apply BitVec.eq_of_toNat_eq
  have hb := b.isLt
  unfold signed8 at h ⊢
  split at h <;> split <;> omega

/-- signed8 is the two's-complement value. -/
theorem signed8_eq_toInt (b : Byte) : signed8 b = b.toInt := by
  have hb := b.isLt
  unfold signed8
  rw [BitVec.toInt_eq_toNat_cond]
  split <;> split <;> omega

/-- Two bytes with the same signed value are the same byte. -/
theorem signed8_inj {a b : Byte} (h : signed8 a = signed8 b) : a = b := by
  rw [← mask8_signed8 a, h, mask8_signed8]

@[simp] theorem zext8_toNat (b : Byte) : (zext8 b).toNat = b.toNat := by
  have hb := b.isLt
  simp only [zext8, BitVec.toNat_setWidth]
  omega

theorem zext8_inj {a b : Byte} (h : zext8 a = zext8 b) : a = b := by
  apply BitVec.eq_of_toNat_eq
  rw [← zext8_toNat a, h, zext8_toNat]

@[simp] theorem lowByte_wordOf (lo hi : Byte) : lowByte (wordOf lo hi) = lo := by
  unfold lowByte wordOf zext8
  ext i hi'
  simp

@[simp] theorem highByte_wordOf (lo hi : Byte) : highByte (wordOf lo hi) = hi := by
  unfold highByte wordOf zext8
  ext i hi'
  have h1 : 8 + i < 16 := by omega
  have h2 : i < 16 := by omega
  simp [h1, h2, BitVec.getLsbD_eq_getElem hi']

@[simp] theorem wordOf_lowByte_highByte (w : Word) : wordOf (lowByte w) (highByte w) = w := by
  unfold highByte lowByte wordOf zext8
  ext i hi'
  simp only [BitVec.getElem_or, BitVec.getElem_setWidth, BitVec.getElem_shiftLeft]
  by_cases h8 : i < 8
  · simp [h8, BitVec.getLsbD_eq_getElem hi']
  · have e : 8 + (i - 8) = i := by omega
    have l : i - 8 < 8 := by omega
    simp [h8, e, l, BitVec.getLsbD_eq_getElem hi']

/-- The value of a little-endian word (spec/20_memory.md R54). -/
theorem wordOf_toNat (lo hi : Byte) : (wordOf lo hi).toNat = lo.toNat + 256 * hi.toNat := by
  have hl := lo.isLt
  have hh := hi.isLt
  unfold wordOf
  rw [BitVec.toNat_or, BitVec.toNat_shiftLeft, zext8_toNat, zext8_toNat, Nat.shiftLeft_eq]
  have e : hi.toNat * 2 ^ 8 % 2 ^ 16 = hi.toNat <<< 8 := by
    rw [Nat.shiftLeft_eq]; omega
  rw [e, Nat.or_comm, ← Nat.shiftLeft_add_eq_or_of_lt (by omega), Nat.shiftLeft_eq]
  omega

end Sys2Proof
end

