-- ==== Sys2Proof/Laws/Decode.lean ====
section
/-! SUPPORT. Decode.lean: what each entry of the opcode table is, said once for all 256, and the decoder by
the three formats of spec/30_encoding.md R76. -/

namespace Sys2Proof

/-- The operand bytes a format of n operand bytes takes from an operand word, low byte first
(spec/30_encoding.md R77). -/
def operandWordBytes : Nat → Word → List Byte
  | 0, _ => []
  | 1, o => [lowByte o]
  | _, o => [lowByte o, highByte o]

/-- What the entry at index k of the table must be: whatever its operand, it builds a well-formed
instruction whose opcode byte is k, whose operand bytes are the operand's, whose length is one more than
their number, and whose (mnemonic, mode tag) does not depend on the operand. -/
def Shape.sound (k : Nat) (sh : Shape) : Prop :=
  ∀ o : Word, (sh.build o).entry.opcode = some (BitVec.ofNat 8 k) ∧ (sh.build o).wellFormed = true ∧
    (sh.build o).operandBytes = operandWordBytes sh.operandBytes o ∧
    (sh.build o).length = 1 + sh.operandBytes ∧ (sh.build o).entry = (sh.build 0).entry

/-- The entries of a list are sound from an index on. -/
def soundFrom : Nat → List Shape → Prop
  | _, [] => True
  | k, sh :: more => sh.sound k ∧ soundFrom (k + 1) more

theorem soundFrom_append {k : Nat} (n : Nat) {l l' : List Shape} (h : soundFrom k l) (h' : soundFrom n l')
    (e : k + l.length = n) : soundFrom k (l ++ l') := by
  induction l generalizing k with
  | nil => simp only [List.length_nil, Nat.add_zero] at e; subst e; exact h'
  | cons sh l ih =>
    rw [List.length_cons] at e
    exact ⟨h.1, ih h.2 (by omega)⟩

theorem soundFrom_get {k n j : Nat} {l : List Shape} (h : soundFrom k l) (hj : j < l.length)
    (e : k + j = n) : l[j].sound n := by
  induction l generalizing k j with
  | nil => exact absurd hj (Nat.not_lt_zero _)
  | cons sh l ih =>
    cases j with
    | zero => subst e; exact h.1
    | succ j => exact ih h.2 (Nat.lt_of_succ_lt_succ hj) (by omega)

theorem opcodeRow0_sound : soundFrom 0 opcodeRow0 := by
  repeat' apply And.intro
  all_goals first | exact fun _ => ⟨rfl, rfl, rfl, rfl, rfl⟩ | trivial
theorem opcodeRow1_sound : soundFrom 16 opcodeRow1 := by
  repeat' apply And.intro
  all_goals first | exact fun _ => ⟨rfl, rfl, rfl, rfl, rfl⟩ | trivial
theorem opcodeRow2_sound : soundFrom 32 opcodeRow2 := by
  repeat' apply And.intro
  all_goals first | exact fun _ => ⟨rfl, rfl, rfl, rfl, rfl⟩ | trivial
theorem opcodeRow3_sound : soundFrom 48 opcodeRow3 := by
  repeat' apply And.intro
  all_goals first | exact fun _ => ⟨rfl, rfl, rfl, rfl, rfl⟩ | trivial
theorem opcodeRow4_sound : soundFrom 64 opcodeRow4 := by
  repeat' apply And.intro
  all_goals first | exact fun _ => ⟨rfl, rfl, rfl, rfl, rfl⟩ | trivial
theorem opcodeRow5_sound : soundFrom 80 opcodeRow5 := by
  repeat' apply And.intro
  all_goals first | exact fun _ => ⟨rfl, rfl, rfl, rfl, rfl⟩ | trivial
theorem opcodeRow6_sound : soundFrom 96 opcodeRow6 := by
  repeat' apply And.intro
  all_goals first | exact fun _ => ⟨rfl, rfl, rfl, rfl, rfl⟩ | trivial
theorem opcodeRow7_sound : soundFrom 112 opcodeRow7 := by
  repeat' apply And.intro
  all_goals first | exact fun _ => ⟨rfl, rfl, rfl, rfl, rfl⟩ | trivial
theorem opcodeRow8_sound : soundFrom 128 opcodeRow8 := by
  repeat' apply And.intro
  all_goals first | exact fun _ => ⟨rfl, rfl, rfl, rfl, rfl⟩ | trivial
theorem opcodeRow9_sound : soundFrom 144 opcodeRow9 := by
  repeat' apply And.intro
  all_goals first | exact fun _ => ⟨rfl, rfl, rfl, rfl, rfl⟩ | trivial
theorem opcodeRowA_sound : soundFrom 160 opcodeRowA := by
  repeat' apply And.intro
  all_goals first | exact fun _ => ⟨rfl, rfl, rfl, rfl, rfl⟩ | trivial
theorem opcodeRowB_sound : soundFrom 176 opcodeRowB := by
  repeat' apply And.intro
  all_goals first | exact fun _ => ⟨rfl, rfl, rfl, rfl, rfl⟩ | trivial
theorem opcodeRowC_sound : soundFrom 192 opcodeRowC := by
  repeat' apply And.intro
  all_goals first | exact fun _ => ⟨rfl, rfl, rfl, rfl, rfl⟩ | trivial
theorem opcodeRowD_sound : soundFrom 208 opcodeRowD := by
  repeat' apply And.intro
  all_goals first | exact fun _ => ⟨rfl, rfl, rfl, rfl, rfl⟩ | trivial
theorem opcodeRowE_sound : soundFrom 224 opcodeRowE := by
  repeat' apply And.intro
  all_goals first | exact fun _ => ⟨rfl, rfl, rfl, rfl, rfl⟩ | trivial
theorem opcodeRowF_sound : soundFrom 240 opcodeRowF := by
  repeat' apply And.intro
  all_goals first | exact fun _ => ⟨rfl, rfl, rfl, rfl, rfl⟩ | trivial

/-- Every entry of the table is sound at its own index (spec/30_encoding.md R81, R84 to R87). -/
theorem opcodeTable_sound : soundFrom 0 opcodeTable := by
  unfold opcodeTable
  refine soundFrom_append 240 ?_ opcodeRowF_sound
    (by simp only [List.length_append, Nat.zero_add]; rfl)
  refine soundFrom_append 224 ?_ opcodeRowE_sound
    (by simp only [List.length_append, Nat.zero_add]; rfl)
  refine soundFrom_append 208 ?_ opcodeRowD_sound
    (by simp only [List.length_append, Nat.zero_add]; rfl)
  refine soundFrom_append 192 ?_ opcodeRowC_sound
    (by simp only [List.length_append, Nat.zero_add]; rfl)
  refine soundFrom_append 176 ?_ opcodeRowB_sound
    (by simp only [List.length_append, Nat.zero_add]; rfl)
  refine soundFrom_append 160 ?_ opcodeRowA_sound
    (by simp only [List.length_append, Nat.zero_add]; rfl)
  refine soundFrom_append 144 ?_ opcodeRow9_sound
    (by simp only [List.length_append, Nat.zero_add]; rfl)
  refine soundFrom_append 128 ?_ opcodeRow8_sound
    (by simp only [List.length_append, Nat.zero_add]; rfl)
  refine soundFrom_append 112 ?_ opcodeRow7_sound
    (by simp only [List.length_append, Nat.zero_add]; rfl)
  refine soundFrom_append 96 ?_ opcodeRow6_sound
    (by simp only [List.length_append, Nat.zero_add]; rfl)
  refine soundFrom_append 80 ?_ opcodeRow5_sound
    (by simp only [List.length_append, Nat.zero_add]; rfl)
  refine soundFrom_append 64 ?_ opcodeRow4_sound
    (by simp only [List.length_append, Nat.zero_add]; rfl)
  refine soundFrom_append 48 ?_ opcodeRow3_sound
    (by simp only [List.length_append, Nat.zero_add]; rfl)
  refine soundFrom_append 32 ?_ opcodeRow2_sound
    (by simp only [List.length_append, Nat.zero_add]; rfl)
  refine soundFrom_append 16 opcodeRow0_sound opcodeRow1_sound rfl

theorem opcodeShape_sound (op : Byte) : (opcodeShape op).sound op.toNat :=
  soundFrom_get opcodeTable_sound _ (Nat.zero_add _)

/-- The instruction an opcode byte builds has that opcode byte (spec/30_encoding.md R81). -/
theorem opcodeShape_opcode (op : Byte) (o : Word) :
    ((opcodeShape op).build o).entry.opcode = some op := by
  rw [(opcodeShape_sound op o).1, BitVec.ofNat_toNat, BitVec.setWidth_eq]

/-- The instruction an opcode byte builds is well formed (spec/30_encoding.md R83). -/
theorem opcodeShape_wellFormed (op : Byte) (o : Word) : ((opcodeShape op).build o).wellFormed = true :=
  (opcodeShape_sound op o).2.1

/-- The length of the instruction an opcode byte builds (spec/30_encoding.md R75, R79). -/
theorem opcodeShape_length (op : Byte) (o : Word) :
    ((opcodeShape op).build o).length = 1 + (opcodeShape op).operandBytes :=
  (opcodeShape_sound op o).2.2.2.1

/-- The (mnemonic, mode tag) an opcode byte stands for does not depend on the operand
(spec/30_encoding.md R76). -/
theorem opcodeShape_entry (op : Byte) (o o' : Word) :
    ((opcodeShape op).build o).entry = ((opcodeShape op).build o').entry :=
  (opcodeShape_sound op o).2.2.2.2.trans (opcodeShape_sound op o').2.2.2.2.symm

theorem Shape.operandBytes_le (sh : Shape) : sh.operandBytes ≤ 2 := by
  cases sh <;> simp [Shape.operandBytes]

theorem operandWordBytes_length {n : Nat} (h : n ≤ 2) (o : Word) : (operandWordBytes n o).length = n := by
  match n with
  | 0 => rfl
  | 1 => rfl
  | 2 => rfl
  | _ + 3 => omega

/-- The encoding of the instruction an opcode byte builds: that byte and the operand's bytes
(spec/30_encoding.md R76, R77). -/
theorem encode_opcodeShape (op : Byte) (o : Word) :
    encode ((opcodeShape op).build o) = some (op :: operandWordBytes (opcodeShape op).operandBytes o) := by
  simp only [encode, opcodeShape_opcode, (opcodeShape_sound op o).2.2.1, Option.map_some]

/-- A byte that is followed by its operand bytes decodes to the instruction they build
(spec/30_encoding.md R75 to R77). -/
theorem decode_operand (op : Byte) (o : Word) (rest : List Byte) :
    decode (op :: (operandWordBytes (opcodeShape op).operandBytes o ++ rest)) =
      .ok ((opcodeShape op).build o, rest) := by
  unfold decode
  cases h : opcodeShape op <;> simp [operandWordBytes, Shape.build, Shape.operandBytes, h]

/-- The only way to decode: the first byte's instruction, with its operand bytes taken off the stream
(spec/40_dispatch.md R102). -/
theorem decode_ok {bytes rest : List Byte} {i : Instr} (h : decode bytes = .ok (i, rest)) :
    ∃ op o, i = (opcodeShape op).build o ∧
      bytes = op :: (operandWordBytes (opcodeShape op).operandBytes o ++ rest) := by
  unfold decode at h
  split at h
  · cases h
  · rename_i op more
    refine ⟨op, ?_⟩
    split at h
    · cases h; rename_i e; exact ⟨0, by rw [e]; rfl, by rw [e]; rfl⟩
    · rename_i f e
      split at h
      · cases h
        rename_i b
        exact ⟨zext8 b, by rw [e]; simp [Shape.build, lowByte, zext8],
          by rw [e]; simp [Shape.operandBytes, operandWordBytes, lowByte, zext8]⟩
      · cases h
    · rename_i f e
      split at h
      · cases h
        rename_i lo hi
        exact ⟨wordOf lo hi, by rw [e]; rfl, by rw [e]; simp [Shape.operandBytes, operandWordBytes]⟩
      · cases h

/-- Decoding stops for want of bytes alone: no byte at all, or fewer operand bytes than the first byte
asks for (spec/40_dispatch.md R101, R103). -/
theorem decode_error {op : Byte} {more : List Byte} {e : DecodeError} :
    decode (op :: more) = .error e ↔ e = .truncated ∧ more.length < (opcodeShape op).operandBytes := by
  unfold decode
  cases h : opcodeShape op with
  | one i => simp [Shape.operandBytes, h]
  | two f => cases more <;> simp [Shape.operandBytes, h, eq_comm]
  | three f =>
    match more with
    | [] => simp [Shape.operandBytes, h, eq_comm]
    | [_] => simp [Shape.operandBytes, h, eq_comm]
    | _ :: _ :: _ => simp [Shape.operandBytes, h]

theorem exists_lowByte (b : Byte) : ∃ o : Word, b = lowByte o := ⟨zext8 b, by simp [lowByte, zext8]⟩

/-- A well-formed instruction is what its opcode byte builds from some operand (spec/30_encoding.md R81,
R84). -/
theorem Instr.built_of_wellFormed {i : Instr} (hw : i.wellFormed = true) :
    ∃ op o, i.entry.opcode = some op ∧ i = (opcodeShape op).build o := by
  cases i with
  | lda op | ldx op | ldy op | adc op | sbc op | cmp op | cpx op | cpy op | and op | ora op | eor op =>
    rcases op with b | (b | b | b | w | w | w | b | b)
    all_goals try obtain ⟨w, rfl⟩ := exists_lowByte b
    all_goals first | exact ⟨_, w, rfl, rfl⟩ | cases hw
  | asl op | lsr op | rol op | ror op =>
    rcases op with _ | (b | b | b | w | w | w | b | b)
    · exact ⟨_, 0, rfl, rfl⟩
    all_goals try obtain ⟨w, rfl⟩ := exists_lowByte b
    all_goals first | exact ⟨_, w, rfl, rfl⟩ | cases hw
  | sta m | stx m | sty m | inc m | dec m =>
    rcases m with b | b | b | w | w | w | b | b
    all_goals try obtain ⟨w, rfl⟩ := exists_lowByte b
    all_goals first | exact ⟨_, w, rfl, rfl⟩ | cases hw
  | bcc b | bcs b | beq b | bne b | bmi b | bpl b | bvc b | bvs b =>
    obtain ⟨w, rfl⟩ := exists_lowByte b
    exact ⟨_, w, rfl, rfl⟩
  | _ => exact ⟨_, 0, rfl, rfl⟩

end Sys2Proof
end

