-- ==== Sys2Proof/Laws/Flags.lean ====
section
/-! SUPPORT. Flags.lean: reading a flag after a flag write, and the ALU said in numbers
(spec/42_alu.md). -/

namespace Sys2Proof.Machine

/-- Reading a bit of P after writing one: the written value there, the old value elsewhere. -/
@[simp] theorem getFlag_putFlag (p : Byte) (f g : Flag) (v : Bool) :
    getFlag (putFlag p f v) g = if f = g then v else getFlag p g := by
  cases v <;> cases f <;> cases g <;>
    simp [getFlag, putFlag, Flag.bit, Flag.mask]

/-- P is its eight bits. -/
theorem flags_ext {p q : Byte} (h : ∀ f, getFlag p f = getFlag q f) : p = q := by
  apply BitVec.eq_of_getLsbD_eq
  intro i hi
  have : i = 0 ∨ i = 1 ∨ i = 2 ∨ i = 3 ∨ i = 4 ∨ i = 5 ∨ i = 6 ∨ i = 7 := by omega
  rcases this with rfl | rfl | rfl | rfl | rfl | rfl | rfl | rfl
  · exact h .c
  · exact h .z
  · exact h .i
  · exact h .d
  · exact h .b
  · exact h .u
  · exact h .v
  · exact h .n

/-- SetZN writes Z and N and no other flag (spec/42_alu.md R141). -/
theorem getFlag_setZN (p r : Byte) (g : Flag) :
    getFlag (setZN p r) g = if g = .n then bit7 r else if g = .z then r == 0 else getFlag p g := by
  cases g <;> simp [setZN]

/-- bit7 is the sign: set exactly from 128 upwards. -/
theorem bit7_eq (b : Byte) : bit7 b = decide (128 ≤ b.toNat) := by
  have : bit7 b = b.msb := by simp [bit7, BitVec.msb_eq_getLsbD_last]
  rw [this, BitVec.msb_eq_decide]

/-- ADD8's result byte (spec/42_alu.md R143). -/
theorem add8_result (a m : Byte) (c : Bool) :
    (add8 a m c).result.toNat = (a.toNat + m.toNat + c.toNat) % 256 := by
  have h := mask8_toNat (a.toNat + m.toNat + c.toNat)
  simp only [add8]
  omega

/-- SUB8's result byte (spec/42_alu.md R144). -/
theorem sub8_result (a m : Byte) (c : Bool) :
    ((sub8 a m c).result.toNat : Int) = ((a.toNat : Int) - m.toNat - (1 - c.toNat)) % 256 :=
  mask8_toNat _

/-- INC8 wraps (spec/42_alu.md R151). -/
theorem inc8_toNat (v : Byte) : (inc8 v).toNat = (v.toNat + 1) % 256 := by
  have h := mask8_toNat (v.toNat + 1)
  simp only [inc8]
  omega

/-- DEC8 wraps (spec/42_alu.md R151). -/
theorem dec8_toNat (v : Byte) : (dec8 v).toNat = (v.toNat + 255) % 256 := by
  have h := mask8_toNat ((v.toNat : Int) - 1)
  have hv := v.isLt
  simp only [dec8]
  omega

@[simp] theorem inc8_dec8 (v : Byte) : inc8 (dec8 v) = v := by
  apply BitVec.eq_of_toNat_eq
  have hv := v.isLt
  rw [inc8_toNat, dec8_toNat]
  omega

/-- CMP8's carry is the signed order of the operands, its Z their equality (spec/42_alu.md R148). -/
theorem cmp8_zero (reg m : Byte) : (cmp8 reg m).zero = decide (reg = m) := by
  simp only [cmp8]
  by_cases e : reg = m
  · simp [e]
  · rw [decide_eq_false e, decide_eq_false (fun q => e (signed8_inj q))]

end Sys2Proof.Machine
end

