-- ==== Sys2Proof/Laws/State.lean ====
section
/-! SUPPORT. State.lean: one lemma per field and update, true by rfl, so that no proof unfolds a record
update. -/

namespace Sys2Proof.Machine

@[simp] theorem State.setA_a (s : State) (v : Byte) : (s.setA v).a = v := rfl
@[simp] theorem State.setA_x (s : State) (v : Byte) : (s.setA v).x = s.x := rfl
@[simp] theorem State.setA_y (s : State) (v : Byte) : (s.setA v).y = s.y := rfl
@[simp] theorem State.setA_sp (s : State) (v : Byte) : (s.setA v).sp = s.sp := rfl
@[simp] theorem State.setA_p (s : State) (v : Byte) : (s.setA v).p = s.p := rfl
@[simp] theorem State.setA_pc (s : State) (v : Byte) : (s.setA v).pc = s.pc := rfl
@[simp] theorem State.setA_mem (s : State) (v : Byte) : (s.setA v).mem = s.mem := rfl
@[simp] theorem State.setA_run (s : State) (v : Byte) : (s.setA v).run = s.run := rfl
@[simp] theorem State.setA_rom (s : State) (v : Byte) : (s.setA v).rom = s.rom := rfl
@[simp] theorem State.setA_params (s : State) (v : Byte) : (s.setA v).params = s.params := rfl

@[simp] theorem State.setX_a (s : State) (v : Byte) : (s.setX v).a = s.a := rfl
@[simp] theorem State.setX_x (s : State) (v : Byte) : (s.setX v).x = v := rfl
@[simp] theorem State.setX_y (s : State) (v : Byte) : (s.setX v).y = s.y := rfl
@[simp] theorem State.setX_sp (s : State) (v : Byte) : (s.setX v).sp = s.sp := rfl
@[simp] theorem State.setX_p (s : State) (v : Byte) : (s.setX v).p = s.p := rfl
@[simp] theorem State.setX_pc (s : State) (v : Byte) : (s.setX v).pc = s.pc := rfl
@[simp] theorem State.setX_mem (s : State) (v : Byte) : (s.setX v).mem = s.mem := rfl
@[simp] theorem State.setX_run (s : State) (v : Byte) : (s.setX v).run = s.run := rfl
@[simp] theorem State.setX_rom (s : State) (v : Byte) : (s.setX v).rom = s.rom := rfl
@[simp] theorem State.setX_params (s : State) (v : Byte) : (s.setX v).params = s.params := rfl

@[simp] theorem State.setY_a (s : State) (v : Byte) : (s.setY v).a = s.a := rfl
@[simp] theorem State.setY_x (s : State) (v : Byte) : (s.setY v).x = s.x := rfl
@[simp] theorem State.setY_y (s : State) (v : Byte) : (s.setY v).y = v := rfl
@[simp] theorem State.setY_sp (s : State) (v : Byte) : (s.setY v).sp = s.sp := rfl
@[simp] theorem State.setY_p (s : State) (v : Byte) : (s.setY v).p = s.p := rfl
@[simp] theorem State.setY_pc (s : State) (v : Byte) : (s.setY v).pc = s.pc := rfl
@[simp] theorem State.setY_mem (s : State) (v : Byte) : (s.setY v).mem = s.mem := rfl
@[simp] theorem State.setY_run (s : State) (v : Byte) : (s.setY v).run = s.run := rfl
@[simp] theorem State.setY_rom (s : State) (v : Byte) : (s.setY v).rom = s.rom := rfl
@[simp] theorem State.setY_params (s : State) (v : Byte) : (s.setY v).params = s.params := rfl

@[simp] theorem State.setS_a (s : State) (v : Byte) : (s.setS v).a = s.a := rfl
@[simp] theorem State.setS_x (s : State) (v : Byte) : (s.setS v).x = s.x := rfl
@[simp] theorem State.setS_y (s : State) (v : Byte) : (s.setS v).y = s.y := rfl
@[simp] theorem State.setS_sp (s : State) (v : Byte) : (s.setS v).sp = v := rfl
@[simp] theorem State.setS_p (s : State) (v : Byte) : (s.setS v).p = s.p := rfl
@[simp] theorem State.setS_pc (s : State) (v : Byte) : (s.setS v).pc = s.pc := rfl
@[simp] theorem State.setS_mem (s : State) (v : Byte) : (s.setS v).mem = s.mem := rfl
@[simp] theorem State.setS_run (s : State) (v : Byte) : (s.setS v).run = s.run := rfl
@[simp] theorem State.setS_rom (s : State) (v : Byte) : (s.setS v).rom = s.rom := rfl
@[simp] theorem State.setS_params (s : State) (v : Byte) : (s.setS v).params = s.params := rfl

@[simp] theorem State.setP_a (s : State) (v : Byte) : (s.setP v).a = s.a := rfl
@[simp] theorem State.setP_x (s : State) (v : Byte) : (s.setP v).x = s.x := rfl
@[simp] theorem State.setP_y (s : State) (v : Byte) : (s.setP v).y = s.y := rfl
@[simp] theorem State.setP_sp (s : State) (v : Byte) : (s.setP v).sp = s.sp := rfl
@[simp] theorem State.setP_p (s : State) (v : Byte) : (s.setP v).p = v := rfl
@[simp] theorem State.setP_pc (s : State) (v : Byte) : (s.setP v).pc = s.pc := rfl
@[simp] theorem State.setP_mem (s : State) (v : Byte) : (s.setP v).mem = s.mem := rfl
@[simp] theorem State.setP_run (s : State) (v : Byte) : (s.setP v).run = s.run := rfl
@[simp] theorem State.setP_rom (s : State) (v : Byte) : (s.setP v).rom = s.rom := rfl
@[simp] theorem State.setP_params (s : State) (v : Byte) : (s.setP v).params = s.params := rfl

@[simp] theorem State.setPc_a (s : State) (v : Word) : (s.setPc v).a = s.a := rfl
@[simp] theorem State.setPc_x (s : State) (v : Word) : (s.setPc v).x = s.x := rfl
@[simp] theorem State.setPc_y (s : State) (v : Word) : (s.setPc v).y = s.y := rfl
@[simp] theorem State.setPc_sp (s : State) (v : Word) : (s.setPc v).sp = s.sp := rfl
@[simp] theorem State.setPc_p (s : State) (v : Word) : (s.setPc v).p = s.p := rfl
@[simp] theorem State.setPc_pc (s : State) (v : Word) : (s.setPc v).pc = v := rfl
@[simp] theorem State.setPc_mem (s : State) (v : Word) : (s.setPc v).mem = s.mem := rfl
@[simp] theorem State.setPc_run (s : State) (v : Word) : (s.setPc v).run = s.run := rfl
@[simp] theorem State.setPc_rom (s : State) (v : Word) : (s.setPc v).rom = s.rom := rfl
@[simp] theorem State.setPc_params (s : State) (v : Word) : (s.setPc v).params = s.params := rfl

@[simp] theorem State.setRun_a (s : State) (r : RunState) : (s.setRun r).a = s.a := rfl
@[simp] theorem State.setRun_x (s : State) (r : RunState) : (s.setRun r).x = s.x := rfl
@[simp] theorem State.setRun_y (s : State) (r : RunState) : (s.setRun r).y = s.y := rfl
@[simp] theorem State.setRun_sp (s : State) (r : RunState) : (s.setRun r).sp = s.sp := rfl
@[simp] theorem State.setRun_p (s : State) (r : RunState) : (s.setRun r).p = s.p := rfl
@[simp] theorem State.setRun_pc (s : State) (r : RunState) : (s.setRun r).pc = s.pc := rfl
@[simp] theorem State.setRun_mem (s : State) (r : RunState) : (s.setRun r).mem = s.mem := rfl
@[simp] theorem State.setRun_run (s : State) (r : RunState) : (s.setRun r).run = r := rfl
@[simp] theorem State.setRun_rom (s : State) (r : RunState) : (s.setRun r).rom = s.rom := rfl
@[simp] theorem State.setRun_params (s : State) (r : RunState) : (s.setRun r).params = s.params := rfl

@[simp] theorem State.setRom_a (s : State) (r : List Byte) : (s.setRom r).a = s.a := rfl
@[simp] theorem State.setRom_x (s : State) (r : List Byte) : (s.setRom r).x = s.x := rfl
@[simp] theorem State.setRom_y (s : State) (r : List Byte) : (s.setRom r).y = s.y := rfl
@[simp] theorem State.setRom_sp (s : State) (r : List Byte) : (s.setRom r).sp = s.sp := rfl
@[simp] theorem State.setRom_p (s : State) (r : List Byte) : (s.setRom r).p = s.p := rfl
@[simp] theorem State.setRom_pc (s : State) (r : List Byte) : (s.setRom r).pc = s.pc := rfl
@[simp] theorem State.setRom_mem (s : State) (r : List Byte) : (s.setRom r).mem = s.mem := rfl
@[simp] theorem State.setRom_run (s : State) (r : List Byte) : (s.setRom r).run = s.run := rfl
@[simp] theorem State.setRom_rom (s : State) (r : List Byte) : (s.setRom r).rom = r := rfl
@[simp] theorem State.setRom_params (s : State) (r : List Byte) : (s.setRom r).params = s.params := rfl

@[simp] theorem State.writeByte_a (s : State) (a : Word) (v : Byte) :
    (s.writeByte a v).a = s.a := rfl
@[simp] theorem State.writeByte_x (s : State) (a : Word) (v : Byte) :
    (s.writeByte a v).x = s.x := rfl
@[simp] theorem State.writeByte_y (s : State) (a : Word) (v : Byte) :
    (s.writeByte a v).y = s.y := rfl
@[simp] theorem State.writeByte_sp (s : State) (a : Word) (v : Byte) :
    (s.writeByte a v).sp = s.sp := rfl
@[simp] theorem State.writeByte_p (s : State) (a : Word) (v : Byte) :
    (s.writeByte a v).p = s.p := rfl
@[simp] theorem State.writeByte_pc (s : State) (a : Word) (v : Byte) :
    (s.writeByte a v).pc = s.pc := rfl
@[simp] theorem State.writeByte_mem (s : State) (a : Word) (v : Byte) :
    (s.writeByte a v).mem = s.mem.write a.toNat v := rfl
@[simp] theorem State.writeByte_run (s : State) (a : Word) (v : Byte) :
    (s.writeByte a v).run = s.run := rfl
@[simp] theorem State.writeByte_rom (s : State) (a : Word) (v : Byte) :
    (s.writeByte a v).rom = s.rom := rfl
@[simp] theorem State.writeByte_params (s : State) (a : Word) (v : Byte) :
    (s.writeByte a v).params = s.params := rfl

@[simp] theorem State.setFlag_a (s : State) (f : Flag) (v : Bool) :
    (s.setFlag f v).a = s.a := rfl
@[simp] theorem State.setFlag_x (s : State) (f : Flag) (v : Bool) :
    (s.setFlag f v).x = s.x := rfl
@[simp] theorem State.setFlag_y (s : State) (f : Flag) (v : Bool) :
    (s.setFlag f v).y = s.y := rfl
@[simp] theorem State.setFlag_sp (s : State) (f : Flag) (v : Bool) :
    (s.setFlag f v).sp = s.sp := rfl
@[simp] theorem State.setFlag_p (s : State) (f : Flag) (v : Bool) :
    (s.setFlag f v).p = putFlag s.p f v := rfl
@[simp] theorem State.setFlag_pc (s : State) (f : Flag) (v : Bool) :
    (s.setFlag f v).pc = s.pc := rfl
@[simp] theorem State.setFlag_mem (s : State) (f : Flag) (v : Bool) :
    (s.setFlag f v).mem = s.mem := rfl
@[simp] theorem State.setFlag_run (s : State) (f : Flag) (v : Bool) :
    (s.setFlag f v).run = s.run := rfl
@[simp] theorem State.setFlag_rom (s : State) (f : Flag) (v : Bool) :
    (s.setFlag f v).rom = s.rom := rfl
@[simp] theorem State.setFlag_params (s : State) (f : Flag) (v : Bool) :
    (s.setFlag f v).params = s.params := rfl

@[simp] theorem State.setZN_a (s : State) (r : Byte) : (s.setZN r).a = s.a := rfl
@[simp] theorem State.setZN_x (s : State) (r : Byte) : (s.setZN r).x = s.x := rfl
@[simp] theorem State.setZN_y (s : State) (r : Byte) : (s.setZN r).y = s.y := rfl
@[simp] theorem State.setZN_sp (s : State) (r : Byte) : (s.setZN r).sp = s.sp := rfl
@[simp] theorem State.setZN_p (s : State) (r : Byte) : (s.setZN r).p = Machine.setZN s.p r := rfl
@[simp] theorem State.setZN_pc (s : State) (r : Byte) : (s.setZN r).pc = s.pc := rfl
@[simp] theorem State.setZN_mem (s : State) (r : Byte) : (s.setZN r).mem = s.mem := rfl
@[simp] theorem State.setZN_run (s : State) (r : Byte) : (s.setZN r).run = s.run := rfl
@[simp] theorem State.setZN_rom (s : State) (r : Byte) : (s.setZN r).rom = s.rom := rfl
@[simp] theorem State.setZN_params (s : State) (r : Byte) : (s.setZN r).params = s.params := rfl

@[simp] theorem State.push_a (s : State) (v : Byte) : (s.push v).a = s.a := rfl
@[simp] theorem State.push_x (s : State) (v : Byte) : (s.push v).x = s.x := rfl
@[simp] theorem State.push_y (s : State) (v : Byte) : (s.push v).y = s.y := rfl
@[simp] theorem State.push_sp (s : State) (v : Byte) : (s.push v).sp = dec8 s.sp := rfl
@[simp] theorem State.push_p (s : State) (v : Byte) : (s.push v).p = s.p := rfl
@[simp] theorem State.push_pc (s : State) (v : Byte) : (s.push v).pc = s.pc := rfl
@[simp] theorem State.push_mem (s : State) (v : Byte) : (s.push v).mem = s.mem.write (stackAddress s.sp).toNat v := rfl
@[simp] theorem State.push_run (s : State) (v : Byte) : (s.push v).run = s.run := rfl
@[simp] theorem State.push_rom (s : State) (v : Byte) : (s.push v).rom = s.rom := rfl
@[simp] theorem State.push_params (s : State) (v : Byte) : (s.push v).params = s.params := rfl

@[simp] theorem State.pull_a (s : State) : s.pull.a = s.a := rfl
@[simp] theorem State.pull_x (s : State) : s.pull.x = s.x := rfl
@[simp] theorem State.pull_y (s : State) : s.pull.y = s.y := rfl
@[simp] theorem State.pull_sp (s : State) : s.pull.sp = inc8 s.sp := rfl
@[simp] theorem State.pull_p (s : State) : s.pull.p = s.p := rfl
@[simp] theorem State.pull_pc (s : State) : s.pull.pc = s.pc := rfl
@[simp] theorem State.pull_mem (s : State) : s.pull.mem = s.mem := rfl
@[simp] theorem State.pull_run (s : State) : s.pull.run = s.run := rfl
@[simp] theorem State.pull_rom (s : State) : s.pull.rom = s.rom := rfl
@[simp] theorem State.pull_params (s : State) : s.pull.params = s.params := rfl

@[simp] theorem State.endRun_a (s : State) (r : RunState) : (s.endRun r).a = s.a := rfl
@[simp] theorem State.endRun_x (s : State) (r : RunState) : (s.endRun r).x = s.x := rfl
@[simp] theorem State.endRun_y (s : State) (r : RunState) : (s.endRun r).y = s.y := rfl
@[simp] theorem State.endRun_sp (s : State) (r : RunState) : (s.endRun r).sp = s.sp := rfl
@[simp] theorem State.endRun_p (s : State) (r : RunState) : (s.endRun r).p = s.p := rfl
@[simp] theorem State.endRun_pc (s : State) (r : RunState) : (s.endRun r).pc = s.pc := rfl
@[simp] theorem State.endRun_mem (s : State) (r : RunState) : (s.endRun r).mem = s.mem := rfl
@[simp] theorem State.endRun_run (s : State) (r : RunState) : (s.endRun r).run = r := rfl
@[simp] theorem State.endRun_rom (s : State) (r : RunState) : (s.endRun r).rom = s.rom := rfl
@[simp] theorem State.endRun_params (s : State) (r : RunState) : (s.endRun r).params = s.params := rfl

@[simp] theorem State.addPc_a (s : State) (d : Int) : (s.addPc d).a = s.a := rfl
@[simp] theorem State.addPc_x (s : State) (d : Int) : (s.addPc d).x = s.x := rfl
@[simp] theorem State.addPc_y (s : State) (d : Int) : (s.addPc d).y = s.y := rfl
@[simp] theorem State.addPc_sp (s : State) (d : Int) : (s.addPc d).sp = s.sp := rfl
@[simp] theorem State.addPc_p (s : State) (d : Int) : (s.addPc d).p = s.p := rfl
@[simp] theorem State.addPc_pc (s : State) (d : Int) : (s.addPc d).pc = mask16 (s.pc.toNat + d) := rfl
@[simp] theorem State.addPc_mem (s : State) (d : Int) : (s.addPc d).mem = s.mem := rfl
@[simp] theorem State.addPc_run (s : State) (d : Int) : (s.addPc d).run = s.run := rfl
@[simp] theorem State.addPc_rom (s : State) (d : Int) : (s.addPc d).rom = s.rom := rfl
@[simp] theorem State.addPc_params (s : State) (d : Int) : (s.addPc d).params = s.params := rfl

@[simp] theorem State.afterReset_a (params : Params) (rom : List Byte) :
    (State.afterReset params rom).a = params.resetA := rfl
@[simp] theorem State.afterReset_x (params : Params) (rom : List Byte) :
    (State.afterReset params rom).x = params.resetX := rfl
@[simp] theorem State.afterReset_y (params : Params) (rom : List Byte) :
    (State.afterReset params rom).y = params.resetY := rfl
@[simp] theorem State.afterReset_sp (params : Params) (rom : List Byte) :
    (State.afterReset params rom).sp = params.resetS := rfl
@[simp] theorem State.afterReset_p (params : Params) (rom : List Byte) :
    (State.afterReset params rom).p = 0x24 := rfl
@[simp] theorem State.afterReset_pc (params : Params) (rom : List Byte) :
    (State.afterReset params rom).pc = 0x0000 := rfl
@[simp] theorem State.afterReset_mem (params : Params) (rom : List Byte) :
    (State.afterReset params rom).mem = [] := rfl
@[simp] theorem State.afterReset_run (params : Params) (rom : List Byte) :
    (State.afterReset params rom).run = .running := rfl
@[simp] theorem State.afterReset_rom (params : Params) (rom : List Byte) :
    (State.afterReset params rom).rom = rom := rfl
@[simp] theorem State.afterReset_params (params : Params) (rom : List Byte) :
    (State.afterReset params rom).params = params := rfl

/-- Two states are the same when their ten fields are. -/
theorem State.ext_fields {s t : State} (ha : s.a = t.a) (hx : s.x = t.x) (hy : s.y = t.y)
    (hs : s.sp = t.sp) (hp : s.p = t.p) (hpc : s.pc = t.pc) (hm : s.mem = t.mem)
    (hr : s.run = t.run) (hrom : s.rom = t.rom) (hpar : s.params = t.params) : s = t := by
  cases s; cases t; simp_all

end Sys2Proof.Machine
end

