-- ==== Sys2Proof/Laws/HostPort.lean ====
section
/-! SUPPORT. HostPort.lean: what a host action in a session can do. -/

namespace Sys2Proof.Machine

/-- A host action answers a session exactly when it is allowed and its effect is a next state
(spec/40_dispatch.md R112). -/
theorem sessionAct_next {act : HostAction} {h g : HostSession} :
    sessionAct act h = .next g ↔
      act.allowed h.inRun = true ∧
      ∃ t, hostAct act h.state = .next t ∧ g = ⟨t, act.inRunAfter h.inRun t⟩ := by
  unfold sessionAct
  cases act.allowed h.inRun <;> cases hostAct act h.state <;> simp [eq_comm]

/-- Every action but the supply of ROM is allowed at any time between steps (spec/40_dispatch.md R112). -/
theorem HostAction.allowed_eq_false {act : HostAction} {inRun : Bool} :
    act.allowed inRun = false ↔ inRun = true ∧ ∃ rom, act = .supplyRom rom := by
  cases act <;> simp [HostAction.allowed]

end Sys2Proof.Machine
end

