-- ==== Sys2Proof/Laws/Memory.lean ====
section
/-! SUPPORT. Memory.lean: read after write, and that every memory operation keeps the canonical form. -/

namespace Sys2Proof.Machine

theorem Memory.read_cons (a k : Nat) (v : Byte) (m : Memory) (h : Memory.read m a = Memory.unlisted) :
    Memory.read (Memory.cons a v m) k = if a = k then v else Memory.read m k := by
  unfold Memory.cons
  split
  · split
    · simp_all
    · rfl
  · rfl

/-- A lookup below every address a canonical memory lists gives the unlisted byte. -/
theorem Memory.read_below {m : Memory} {lo a : Nat} (h : Memory.wfFrom lo m = true) (ha : a < lo) :
    Memory.read m a = Memory.unlisted := by
  induction m generalizing lo with
  | nil => rfl
  | cons c m ih =>
    simp only [Memory.wfFrom, Bool.and_eq_true, decide_eq_true_eq] at h
    obtain ⟨⟨⟨hlo, -⟩, -⟩, hm⟩ := h
    simp only [Memory.read]
    rw [if_neg (by omega)]
    exact ih hm (by omega)

theorem Memory.wfFrom_mono {m : Memory} {lo lo' : Nat} (h : Memory.wfFrom lo m = true) (hl : lo' ≤ lo) :
    Memory.wfFrom lo' m = true := by
  cases m with
  | nil => rfl
  | cons c m =>
    simp only [Memory.wfFrom, Bool.and_eq_true, decide_eq_true_eq] at h ⊢
    exact ⟨⟨⟨by omega, h.1.1.2⟩, h.1.2⟩, h.2⟩

theorem Memory.wfFrom_cons {m : Memory} {lo a : Nat} {v : Byte} (h : Memory.wfFrom (a + 1) m = true)
    (hl : lo ≤ a) (ha : a < 65536) : Memory.wfFrom lo (Memory.cons a v m) = true := by
  unfold Memory.cons
  split
  · exact Memory.wfFrom_mono h (by omega)
  · simp only [Memory.wfFrom, Bool.and_eq_true, decide_eq_true_eq]
    exact ⟨⟨⟨hl, ha⟩, by assumption⟩, h⟩

/-- A read after a write to a canonical memory: the value at the address written, the old byte at every
other (spec/20_memory.md R56). -/
theorem Memory.read_write {m : Memory} {lo : Nat} (h : Memory.wfFrom lo m = true) (a k : Nat) (v : Byte) :
    Memory.read (Memory.write m a v) k = if a = k then v else Memory.read m k := by
  induction m generalizing lo with
  | nil => exact Memory.read_cons a k v [] rfl
  | cons c m ih =>
    obtain ⟨b, w⟩ := c
    have h' := h
    simp only [Memory.wfFrom, Bool.and_eq_true, decide_eq_true_eq] at h
    obtain ⟨⟨⟨-, -⟩, -⟩, hm⟩ := h
    unfold Memory.write
    split
    · rename_i hab
      apply Memory.read_cons
      simp only [Memory.read]
      rw [if_neg (by omega)]
      exact Memory.read_below hm (by omega)
    · split
      · rename_i hab
        subst hab
        rw [Memory.read_cons _ _ _ _ (Memory.read_below hm (by omega))]
        simp only [Memory.read]
        split <;> rfl
      · rename_i hne
        simp only [Memory.read]
        rw [ih hm]
        split <;> split <;> simp_all

/-- A write keeps the canonical form. -/
theorem Memory.wfFrom_write {m : Memory} {lo : Nat} (h : Memory.wfFrom lo m = true) {a : Nat} (v : Byte)
    (hl : lo ≤ a) (ha : a < 65536) : Memory.wfFrom lo (Memory.write m a v) = true := by
  induction m generalizing lo with
  | nil => exact Memory.wfFrom_cons rfl hl ha
  | cons c m ih =>
    obtain ⟨b, w⟩ := c
    have h' := h
    simp only [Memory.wfFrom, Bool.and_eq_true, decide_eq_true_eq] at h
    obtain ⟨⟨⟨hb, hb'⟩, hw⟩, hm⟩ := h
    unfold Memory.write
    split
    · apply Memory.wfFrom_cons _ hl ha
      simp only [Memory.wfFrom, Bool.and_eq_true, decide_eq_true_eq]
      exact ⟨⟨⟨by omega, hb'⟩, hw⟩, hm⟩
    · split
      · rename_i hab
        subst hab
        exact Memory.wfFrom_cons hm hl ha
      · simp only [Memory.wfFrom, Bool.and_eq_true, decide_eq_true_eq]
        exact ⟨⟨⟨hb, hb'⟩, hw⟩, ih hm (by omega)⟩

/-- M[addr] <- v keeps the canonical form of MEMORY. -/
theorem Memory.wf_write {m : Memory} (h : m.wf = true) (a : Word) (v : Byte) :
    (m.write a.toNat v).wf = true :=
  Memory.wfFrom_write h v (Nat.zero_le _) a.isLt

/-- M[addr] after M[addr'] <- v (spec/20_memory.md R56). -/
theorem State.readByte_writeByte {s : State} (h : s.mem.wf = true) (a k : Word) (v : Byte) :
    (s.writeByte a v).readByte k = if a = k then v else s.readByte k := by
  simp only [State.readByte, State.writeByte_mem]
  rw [Memory.read_write h]
  by_cases e : a = k
  · simp [e]
  · rw [if_neg e, if_neg (fun q => e (BitVec.eq_of_toNat_eq q))]

/-- Two canonical memories that read the same everywhere are the same list. -/
theorem Memory.ext_wfFrom {m n : Memory} {lo : Nat} (hm : Memory.wfFrom lo m = true)
    (hn : Memory.wfFrom lo n = true) (h : ∀ a, Memory.read m a = Memory.read n a) : m = n := by
  induction m generalizing lo n with
  | nil =>
    cases n with
    | nil => rfl
    | cons c n =>
      simp only [Memory.wfFrom, Bool.and_eq_true, decide_eq_true_eq] at hn
      have := h c.1
      simp only [Memory.read, ↓reduceIte] at this
      exact absurd this.symm hn.1.2
  | cons c m ih =>
    simp only [Memory.wfFrom, Bool.and_eq_true, decide_eq_true_eq] at hm
    cases n with
    | nil =>
      have := h c.1
      simp only [Memory.read, ↓reduceIte] at this
      exact absurd this hm.1.2
    | cons d n =>
      simp only [Memory.wfFrom, Bool.and_eq_true, decide_eq_true_eq] at hn
      obtain ⟨k, v⟩ := c
      obtain ⟨j, w⟩ := d
      simp only at hm hn
      have hk := h k
      have hj := h j
      simp only [Memory.read, ↓reduceIte] at hk hj
      have ekj : k = j := by
        by_contra hne
        rw [if_neg (Ne.symm hne)] at hk
        rw [if_neg hne] at hj
        rcases Nat.lt_or_gt_of_ne hne with hlt | hlt
        · exact hm.1.2 (hk.trans (Memory.read_below hn.2 (by omega)))
        · exact hn.1.2 (hj.symm.trans (Memory.read_below hm.2 (by omega)))
      subst ekj
      have evw : v = w := by simpa using hk
      subst evw
      have : m = n := by
        apply ih hm.2 hn.2
        intro a
        have ha := h a
        simp only [Memory.read] at ha
        by_cases e : k = a
        · subst e
          rw [Memory.read_below hm.2 (by omega), Memory.read_below hn.2 (by omega)]
        · rwa [if_neg e, if_neg e] at ha
      rw [this]

end Sys2Proof.Machine
end

