-- ==== Sys2Proof/Laws/Ops.lean ====
section
/-! SUPPORT. Ops.lean: what each shared operation does, said once: the flags and the bytes after it. The
field lemmas of the record updates are in Laws/State.lean. -/

namespace Sys2Proof.Machine

/-! ### Flags -/

@[simp] theorem State.flag_setFlag (s : State) (f g : Flag) (v : Bool) :
    (s.setFlag f v).flag g = if f = g then v else s.flag g := by
  simp [State.flag]

/-- SetZN writes Z and N and no other flag (spec/42_alu.md R141). -/
theorem State.flag_setZN (s : State) (r : Byte) (g : Flag) :
    (s.setZN r).flag g = if g = .n then bit7 r else if g = .z then r == 0 else s.flag g := by
  simp only [State.flag, State.setZN_p, getFlag_setZN]

@[simp] theorem State.flag_setA (s : State) (v : Byte) (f : Flag) : (s.setA v).flag f = s.flag f := rfl
@[simp] theorem State.flag_setX (s : State) (v : Byte) (f : Flag) : (s.setX v).flag f = s.flag f := rfl
@[simp] theorem State.flag_setY (s : State) (v : Byte) (f : Flag) : (s.setY v).flag f = s.flag f := rfl
@[simp] theorem State.flag_setS (s : State) (v : Byte) (f : Flag) : (s.setS v).flag f = s.flag f := rfl
@[simp] theorem State.flag_setPc (s : State) (v : Word) (f : Flag) : (s.setPc v).flag f = s.flag f := rfl
@[simp] theorem State.flag_setRun (s : State) (r : RunState) (f : Flag) :
    (s.setRun r).flag f = s.flag f := rfl
@[simp] theorem State.flag_setP (s : State) (v : Byte) (f : Flag) : (s.setP v).flag f = getFlag v f := rfl
@[simp] theorem State.flag_writeByte (s : State) (a : Word) (v : Byte) (f : Flag) :
    (s.writeByte a v).flag f = s.flag f := rfl
@[simp] theorem State.flag_pull (s : State) (f : Flag) : s.pull.flag f = s.flag f := rfl
@[simp] theorem State.flag_push (s : State) (v : Byte) (f : Flag) : (s.push v).flag f = s.flag f := rfl

/-! ### Bytes of MEMORY -/

@[simp] theorem State.readByte_setA (s : State) (v : Byte) (k : Word) :
    (s.setA v).readByte k = s.readByte k := rfl
@[simp] theorem State.readByte_setX (s : State) (v : Byte) (k : Word) :
    (s.setX v).readByte k = s.readByte k := rfl
@[simp] theorem State.readByte_setY (s : State) (v : Byte) (k : Word) :
    (s.setY v).readByte k = s.readByte k := rfl
@[simp] theorem State.readByte_setS (s : State) (v : Byte) (k : Word) :
    (s.setS v).readByte k = s.readByte k := rfl
@[simp] theorem State.readByte_setP (s : State) (v : Byte) (k : Word) :
    (s.setP v).readByte k = s.readByte k := rfl
@[simp] theorem State.readByte_setPc (s : State) (v : Word) (k : Word) :
    (s.setPc v).readByte k = s.readByte k := rfl
@[simp] theorem State.readByte_setRun (s : State) (r : RunState) (k : Word) :
    (s.setRun r).readByte k = s.readByte k := rfl
@[simp] theorem State.readByte_setFlag (s : State) (f : Flag) (v : Bool) (k : Word) :
    (s.setFlag f v).readByte k = s.readByte k := rfl
@[simp] theorem State.readByte_setZN (s : State) (r : Byte) (k : Word) :
    (s.setZN r).readByte k = s.readByte k := rfl
@[simp] theorem State.readByte_pull (s : State) (k : Word) : s.pull.readByte k = s.readByte k := rfl

/-- The stack address as a number: always in 0x0100..0x01FF (spec/46_stack.md R210). -/
@[simp] theorem stackAddress_toNat (sp : Byte) : (stackAddress sp).toNat = 256 + sp.toNat := by
  have h := sp.isLt
  have e : (0x0100 : Word).toNat = 256 := rfl
  rw [stackAddress, BitVec.toNat_add, zext8_toNat, e]
  omega

/-- The bytes after a push (spec/46_stack.md R210). -/
theorem State.readByte_push {s : State} (h : s.mem.wf = true) (v : Byte) (k : Word) :
    (s.push v).readByte k = if stackAddress s.sp = k then v else s.readByte k :=
  State.readByte_writeByte h _ _ _

/-- A pull after a push reads the pushed byte (spec/46_stack.md R211). -/
theorem State.pulled_push {s : State} (h : s.mem.wf = true) (v : Byte) : (s.push v).pulled = v := by
  simp only [State.pulled, State.push_sp, inc8_dec8]
  rw [State.readByte_push h, if_pos rfl]

/-! ### The shared operations of the instruction families -/

/-- What ADC and SBC write (spec/44_arithmetic_compare.md R180, R181). -/
theorem State.flag_setAlu (s : State) (out : AluOut) (f : Flag) :
    (s.setAlu out).flag f =
      if f = .n then bit7 out.result else if f = .z then out.result == 0
      else if f = .v then out.overflow else if f = .c then out.carry else s.flag f := by
  cases f <;> simp [State.setAlu, State.flag_setZN]

/-- What the compares write (spec/42_alu.md R148). -/
theorem State.flag_setCompare (s : State) (out : CmpOut) (f : Flag) :
    (s.setCompare out).flag f =
      if f = .c then out.carry else if f = .z then out.zero
      else if f = .n ∧ s.params.cmpNPolicy = .diffBit7 then out.negative else s.flag f := by
  cases f <;> cases h : s.params.cmpNPolicy <;> simp [State.setCompare, h]

/-- A compare changes nothing but P. -/
theorem State.setCompare_eq (s : State) (out : CmpOut) :
    s.setCompare out = s.setP (s.setCompare out).p := by
  cases h : s.params.cmpNPolicy <;> simp [State.setCompare, h] <;> rfl

/-- ADC and SBC change nothing but A and P. -/
theorem State.setAlu_eq (s : State) (out : AluOut) :
    s.setAlu out = (s.setA out.result).setP (s.setAlu out).p := rfl

/-- What a shift or rotate writes in P (spec/45_logic_shift_incdec.md section 2). -/
theorem State.flag_shift (s : State) (f : Byte → Bool → ShiftOut) (t : ShiftOperand) (g : Flag) :
    (s.shift f t).flag g =
      if g = .n then bit7 (f (s.shiftInput t) (s.flag .c)).result
      else if g = .z then (f (s.shiftInput t) (s.flag .c)).result == 0
      else if g = .c then (f (s.shiftInput t) (s.flag .c)).carry else s.flag g := by
  cases t <;> cases g <;> simp [State.shift, State.flag_setZN, State.shiftOutput]

/-- A taken branch adds the displacement to PC; one not taken changes nothing (spec/48_branches.md R235). -/
theorem State.branch_eq (s : State) (cond : Bool) (d : Byte) :
    s.branch cond d = s.setPc (if cond then mask16 (s.pc.toNat + signed8 d) else s.pc) := by
  cases cond <;> rfl

/-- The answer of a handler is a next state exactly for a supported pair. -/
theorem handled_next {supported : Bool} {t t' : State} :
    handled supported t = .next t' ↔ supported = true ∧ t = t' := by
  cases supported <;> simp [handled]

theorem handled_true (t : State) : handled true t = .next t := rfl

end Sys2Proof.Machine
end

