-- ==== Sys2Proof/Laws/PerInstr.lean ====
section
/-! SUPPORT. PerInstr.lean: statements about the instructions as text, one lemma per constructor. -/

namespace Sys2Proof

theorem MemOperand.bytes_length (m : MemOperand) : m.bytes.length = m.mode.operandBytes := by
  cases m <;> rfl

theorem ValueOperand.bytes_length (op : ValueOperand) : op.bytes.length = op.mode.operandBytes := by
  cases op with
  | imm o => rfl
  | mem m => exact m.bytes_length

theorem ShiftOperand.bytes_length (t : ShiftOperand) : t.bytes.length = t.mode.operandBytes := by
  cases t with
  | acc => rfl
  | mem m => exact m.bytes_length

/-- The operand bytes of an instruction are as many as its mode tag has (spec/30_encoding.md R79). -/
theorem Instr.length_eq (i : Instr) : i.length = 1 + i.operandBytes.length := by
  cases i <;>
    first
      | rfl
      | simp only [Instr.length, Instr.entry, Instr.operandBytes, ValueOperand.bytes_length,
          MemOperand.bytes_length, ShiftOperand.bytes_length]

namespace Laws.EncodedLength

/-- What the encoder gives has the length the mode tag gives (spec/30_encoding.md R75, R79). -/
def Statement (i : Instr) : Prop := ∀ bytes, encode i = some bytes → bytes.length = i.length

theorem all (i : Instr) : Statement i := by
  intro bytes h
  simp only [encode, Option.map_eq_some_iff] at h
  obtain ⟨code, -, rfl⟩ := h
  rw [i.length_eq, List.length_cons, Nat.add_comm]

theorem hlt : Statement .hlt := all _
theorem lda (op : ValueOperand) : Statement (.lda op) := all _
theorem ldx (op : ValueOperand) : Statement (.ldx op) := all _
theorem ldy (op : ValueOperand) : Statement (.ldy op) := all _
theorem sta (m : MemOperand) : Statement (.sta m) := all _
theorem stx (m : MemOperand) : Statement (.stx m) := all _
theorem sty (m : MemOperand) : Statement (.sty m) := all _
theorem tax : Statement .tax := all _
theorem tay : Statement .tay := all _
theorem txa : Statement .txa := all _
theorem tya : Statement .tya := all _
theorem tsx : Statement .tsx := all _
theorem txs : Statement .txs := all _
theorem adc (op : ValueOperand) : Statement (.adc op) := all _
theorem sbc (op : ValueOperand) : Statement (.sbc op) := all _
theorem cmp (op : ValueOperand) : Statement (.cmp op) := all _
theorem cpx (op : ValueOperand) : Statement (.cpx op) := all _
theorem cpy (op : ValueOperand) : Statement (.cpy op) := all _
theorem and (op : ValueOperand) : Statement (.and op) := all _
theorem ora (op : ValueOperand) : Statement (.ora op) := all _
theorem eor (op : ValueOperand) : Statement (.eor op) := all _
theorem asl (t : ShiftOperand) : Statement (.asl t) := all _
theorem lsr (t : ShiftOperand) : Statement (.lsr t) := all _
theorem rol (t : ShiftOperand) : Statement (.rol t) := all _
theorem ror (t : ShiftOperand) : Statement (.ror t) := all _
theorem inc (m : MemOperand) : Statement (.inc m) := all _
theorem dec (m : MemOperand) : Statement (.dec m) := all _
theorem inx : Statement .inx := all _
theorem iny : Statement .iny := all _
theorem dex : Statement .dex := all _
theorem dey : Statement .dey := all _
theorem pha : Statement .pha := all _
theorem pla : Statement .pla := all _
theorem php : Statement .php := all _
theorem plp : Statement .plp := all _
theorem clc : Statement .clc := all _
theorem sec : Statement .sec := all _
theorem cli : Statement .cli := all _
theorem sei : Statement .sei := all _
theorem cld : Statement .cld := all _
theorem sed : Statement .sed := all _
theorem clv : Statement .clv := all _
theorem nop : Statement .nop := all _
theorem bcc (d : Byte) : Statement (.bcc d) := all _
theorem bcs (d : Byte) : Statement (.bcs d) := all _
theorem beq (d : Byte) : Statement (.beq d) := all _
theorem bne (d : Byte) : Statement (.bne d) := all _
theorem bmi (d : Byte) : Statement (.bmi d) := all _
theorem bpl (d : Byte) : Statement (.bpl d) := all _
theorem bvc (d : Byte) : Statement (.bvc d) := all _
theorem bvs (d : Byte) : Statement (.bvs d) := all _
theorem unassigned02 : Statement .unassigned02 := all _
theorem unassigned03 : Statement .unassigned03 := all _
theorem unassigned04 : Statement .unassigned04 := all _
theorem unassigned07 : Statement .unassigned07 := all _
theorem unassigned0B : Statement .unassigned0B := all _
theorem unassigned0C : Statement .unassigned0C := all _
theorem unassigned0F : Statement .unassigned0F := all _
theorem unassigned12 : Statement .unassigned12 := all _
theorem unassigned13 : Statement .unassigned13 := all _
theorem unassigned14 : Statement .unassigned14 := all _
theorem unassigned17 : Statement .unassigned17 := all _
theorem unassigned1A : Statement .unassigned1A := all _
theorem unassigned1B : Statement .unassigned1B := all _
theorem unassigned1C : Statement .unassigned1C := all _
theorem unassigned1F : Statement .unassigned1F := all _
theorem unassigned20 : Statement .unassigned20 := all _
theorem unassigned22 : Statement .unassigned22 := all _
theorem unassigned23 : Statement .unassigned23 := all _
theorem unassigned24 : Statement .unassigned24 := all _
theorem unassigned27 : Statement .unassigned27 := all _
theorem unassigned2B : Statement .unassigned2B := all _
theorem unassigned2C : Statement .unassigned2C := all _
theorem unassigned2F : Statement .unassigned2F := all _
theorem unassigned32 : Statement .unassigned32 := all _
theorem unassigned33 : Statement .unassigned33 := all _
theorem unassigned34 : Statement .unassigned34 := all _
theorem unassigned37 : Statement .unassigned37 := all _
theorem unassigned3A : Statement .unassigned3A := all _
theorem unassigned3B : Statement .unassigned3B := all _
theorem unassigned3C : Statement .unassigned3C := all _
theorem unassigned3F : Statement .unassigned3F := all _
theorem unassigned40 : Statement .unassigned40 := all _
theorem unassigned42 : Statement .unassigned42 := all _
theorem unassigned43 : Statement .unassigned43 := all _
theorem unassigned44 : Statement .unassigned44 := all _
theorem unassigned47 : Statement .unassigned47 := all _
theorem unassigned4B : Statement .unassigned4B := all _
theorem unassigned4C : Statement .unassigned4C := all _
theorem unassigned4F : Statement .unassigned4F := all _
theorem unassigned52 : Statement .unassigned52 := all _
theorem unassigned53 : Statement .unassigned53 := all _
theorem unassigned54 : Statement .unassigned54 := all _
theorem unassigned57 : Statement .unassigned57 := all _
theorem unassigned5A : Statement .unassigned5A := all _
theorem unassigned5B : Statement .unassigned5B := all _
theorem unassigned5C : Statement .unassigned5C := all _
theorem unassigned5F : Statement .unassigned5F := all _
theorem unassigned60 : Statement .unassigned60 := all _
theorem unassigned62 : Statement .unassigned62 := all _
theorem unassigned63 : Statement .unassigned63 := all _
theorem unassigned64 : Statement .unassigned64 := all _
theorem unassigned67 : Statement .unassigned67 := all _
theorem unassigned6B : Statement .unassigned6B := all _
theorem unassigned6C : Statement .unassigned6C := all _
theorem unassigned6F : Statement .unassigned6F := all _
theorem unassigned72 : Statement .unassigned72 := all _
theorem unassigned73 : Statement .unassigned73 := all _
theorem unassigned74 : Statement .unassigned74 := all _
theorem unassigned77 : Statement .unassigned77 := all _
theorem unassigned7A : Statement .unassigned7A := all _
theorem unassigned7B : Statement .unassigned7B := all _
theorem unassigned7C : Statement .unassigned7C := all _
theorem unassigned7F : Statement .unassigned7F := all _
theorem unassigned80 : Statement .unassigned80 := all _
theorem unassigned82 : Statement .unassigned82 := all _
theorem unassigned83 : Statement .unassigned83 := all _
theorem unassigned87 : Statement .unassigned87 := all _
theorem unassigned89 : Statement .unassigned89 := all _
theorem unassigned8B : Statement .unassigned8B := all _
theorem unassigned8F : Statement .unassigned8F := all _
theorem unassigned92 : Statement .unassigned92 := all _
theorem unassigned93 : Statement .unassigned93 := all _
theorem unassigned97 : Statement .unassigned97 := all _
theorem unassigned9B : Statement .unassigned9B := all _
theorem unassigned9C : Statement .unassigned9C := all _
theorem unassigned9E : Statement .unassigned9E := all _
theorem unassigned9F : Statement .unassigned9F := all _
theorem unassignedA3 : Statement .unassignedA3 := all _
theorem unassignedA7 : Statement .unassignedA7 := all _
theorem unassignedAB : Statement .unassignedAB := all _
theorem unassignedAF : Statement .unassignedAF := all _
theorem unassignedB2 : Statement .unassignedB2 := all _
theorem unassignedB3 : Statement .unassignedB3 := all _
theorem unassignedB7 : Statement .unassignedB7 := all _
theorem unassignedBB : Statement .unassignedBB := all _
theorem unassignedBF : Statement .unassignedBF := all _
theorem unassignedC2 : Statement .unassignedC2 := all _
theorem unassignedC3 : Statement .unassignedC3 := all _
theorem unassignedC7 : Statement .unassignedC7 := all _
theorem unassignedCB : Statement .unassignedCB := all _
theorem unassignedCF : Statement .unassignedCF := all _
theorem unassignedD2 : Statement .unassignedD2 := all _
theorem unassignedD3 : Statement .unassignedD3 := all _
theorem unassignedD4 : Statement .unassignedD4 := all _
theorem unassignedD7 : Statement .unassignedD7 := all _
theorem unassignedDA : Statement .unassignedDA := all _
theorem unassignedDB : Statement .unassignedDB := all _
theorem unassignedDC : Statement .unassignedDC := all _
theorem unassignedDF : Statement .unassignedDF := all _
theorem unassignedE2 : Statement .unassignedE2 := all _
theorem unassignedE3 : Statement .unassignedE3 := all _
theorem unassignedE7 : Statement .unassignedE7 := all _
theorem unassignedEB : Statement .unassignedEB := all _
theorem unassignedEF : Statement .unassignedEF := all _
theorem unassignedF2 : Statement .unassignedF2 := all _
theorem unassignedF3 : Statement .unassignedF3 := all _
theorem unassignedF4 : Statement .unassignedF4 := all _
theorem unassignedF7 : Statement .unassignedF7 := all _
theorem unassignedFA : Statement .unassignedFA := all _
theorem unassignedFB : Statement .unassignedFB := all _
theorem unassignedFC : Statement .unassignedFC := all _
theorem unassignedFF : Statement .unassignedFF := all _

end Laws.EncodedLength

end Sys2Proof
end

