-- ==== Sys2Proof/Laws/Step.lean ====
section
/-! SUPPORT. Step.lean: what a step can do, said once (spec/40_dispatch.md R100 to R107), and what
placing bytes at PC makes of ROM. -/

namespace Sys2Proof.Machine

@[simp] theorem State.advance_a (s : State) (n : Nat) : (s.advance n).a = s.a := by
  unfold State.advance; split <;> rfl
@[simp] theorem State.advance_x (s : State) (n : Nat) : (s.advance n).x = s.x := by
  unfold State.advance; split <;> rfl
@[simp] theorem State.advance_y (s : State) (n : Nat) : (s.advance n).y = s.y := by
  unfold State.advance; split <;> rfl
@[simp] theorem State.advance_sp (s : State) (n : Nat) : (s.advance n).sp = s.sp := by
  unfold State.advance; split <;> rfl
@[simp] theorem State.advance_p (s : State) (n : Nat) : (s.advance n).p = s.p := by
  unfold State.advance; split <;> rfl
@[simp] theorem State.advance_mem (s : State) (n : Nat) : (s.advance n).mem = s.mem := by
  unfold State.advance; split <;> rfl
@[simp] theorem State.advance_run (s : State) (n : Nat) : (s.advance n).run = s.run := by
  unfold State.advance; split <;> rfl
@[simp] theorem State.advance_rom (s : State) (n : Nat) : (s.advance n).rom = s.rom := by
  unfold State.advance; split <;> rfl
@[simp] theorem State.advance_params (s : State) (n : Nat) : (s.advance n).params = s.params := by
  unfold State.advance; split <;> rfl

/-- The advance of a RUNNING core (spec/40_dispatch.md R105). -/
theorem State.advance_running {s : State} (h : s.run = .running) (n : Nat) : s.advance n = s.addPc n := by
  unfold State.advance; rw [h]

/-- There is no advance once the instruction has ended the run (spec/40_dispatch.md R100, R107). -/
theorem State.advance_ended {s : State} (h : s.run ≠ .running) (n : Nat) : s.advance n = s := by
  unfold State.advance
  split
  · exact absurd (by assumption) h
  · rfl
  · rfl

/-- The answer after the advance is a next state exactly when the handler's answer is. -/
theorem advanced_next {n : Nat} {r : Result} {t : State} :
    advanced n r = .next t ↔ ∃ u, r = .next u ∧ t = u.advance n := by
  cases r <;> simp [advanced, eq_comm]

/-- The step by what is decoded at PC (spec/40_dispatch.md R100, R101, R103). -/
theorem step_of_running {s : State} (h : s.run = .running) :
    step s = match decode s.stream with
      | .error .endOfStream => .next (s.endRun (.halted .endOfRom))
      | .error .truncated => .next (s.endRun (.faulted .truncatedInstruction))
      | .ok (i, _) => advanced i.length (exec i s) := by
  cases s; cases h; rfl

/-- The three ways a step reaches a next state: the end of the stream, a truncated instruction, or the
decoded instruction and the advance (spec/40_dispatch.md R100). -/
theorem step_cases {s t : State} (h : step s = .next t) :
    s.run = .running ∧
    ((decode s.stream = .error .endOfStream ∧ t = s.endRun (.halted .endOfRom)) ∨
     (decode s.stream = .error .truncated ∧ t = s.endRun (.faulted .truncatedInstruction)) ∨
     ∃ i rest u, decode s.stream = .ok (i, rest) ∧ exec i s = .next u ∧ t = u.advance i.length) := by
  have hr : s.run = .running := by
    unfold step romStep at h
    split at h <;> first | assumption | cases h
  refine ⟨hr, ?_⟩
  rw [step_of_running hr] at h
  split at h
  · cases h; exact .inl ⟨by assumption, rfl⟩
  · cases h; exact .inr (.inl ⟨by assumption, rfl⟩)
  · obtain ⟨u, hu, rfl⟩ := advanced_next.1 h
    exact .inr (.inr ⟨_, _, u, by assumption, hu, rfl⟩)

/-- Nothing is decoded exactly when PC is at or past the end of ROM (spec/40_dispatch.md R101). -/
theorem State.stream_eq_nil {s : State} : s.stream = [] ↔ s.rom.length ≤ s.pc.toNat := by
  simp [State.stream]

/-- The stream from PC begins with the byte of ROM at PC (spec/20_memory.md R52). -/
theorem State.stream_cons {s : State} {op : Byte} :
    s.rom[s.pc.toNat]? = some op ↔ s.stream = op :: s.rom.drop (s.pc.toNat + 1) := by
  unfold State.stream
  constructor
  · intro h
    obtain ⟨hl, he⟩ := List.getElem?_eq_some_iff.1 h
    rw [List.drop_eq_getElem_cons hl, he]
  · intro h
    have := congrArg (·[0]?) h
    simpa using this

/-- Placed bytes are read back at the place, up to the 65536 bytes of ROM (spec/20_memory.md R52). -/
theorem placeBytes_drop {rom bytes : List Byte} {k : Nat} (h : k + bytes.length ≤ 65536) :
    ∃ rest, (placeBytes rom k bytes).drop k = bytes ++ rest := by
  have hk : (rom.take k ++ List.replicate (k - rom.length) (0x00 : Byte)).length = k := by
    simp only [List.length_append, List.length_take, List.length_replicate]
    omega
  unfold placeBytes
  rw [List.append_assoc, List.drop_take, List.drop_left' hk, List.take_append,
    List.take_of_length_le (by omega)]
  exact ⟨_, rfl⟩

theorem placeBytes_length (rom bytes : List Byte) (k : Nat) : (placeBytes rom k bytes).length ≤ 65536 := by
  unfold placeBytes
  rw [List.length_take]
  omega

end Sys2Proof.Machine
end

