-- ==== Sys2Proof/Tests/Slice0.lean ====
section
/-! SUPPORT. Tests/Slice0.lean: the model's own tests. Expected results come from the spec's opcode table
(spec/opcode_table.json) and its vectors (T<n> of spec/95_test_vectors.md and
spec/96_test_vectors_families.md); each witness shows that the hypotheses of an obligation can be met. -/

namespace Sys2Proof.Tests

open Sys2Proof.Machine Sys2Proof.Claims Sys2Proof.Assembly

/-! ### Decoding: all 256 opcode bytes, operand bytes 34 12 (spec/opcode_table.json) -/

/-- The instruction of a byte string that is exactly one instruction. -/
def decoded (bytes : List Byte) : Option Instr :=
  match decode bytes with
  | .ok (i, []) => some i
  | .ok (_, _ :: _) => none
  | .error _ => none

theorem test_decode_row_0 :
    [[0x00], [0x01, 0x34], [0x02], [0x03], [0x04], [0x05, 0x34], [0x06, 0x34], [0x07], [0x08],
     [0x09, 0x34], [0x0A], [0x0B], [0x0C], [0x0D, 0x34, 0x12], [0x0E, 0x34, 0x12], [0x0F]].map decoded =
    [.hlt, .ora (.mem (.zpxi 0x34)), .unassigned02, .unassigned03, .unassigned04,
     .ora (.mem (.zp 0x34)), .asl (.mem (.zp 0x34)), .unassigned07, .php, .ora (.imm 0x34),
     .asl .acc, .unassigned0B, .unassigned0C, .ora (.mem (.abs 0x1234)),
     .asl (.mem (.abs 0x1234)), .unassigned0F].map some := by
  decide

theorem test_decode_row_1 :
    [[0x10, 0x34], [0x11, 0x34], [0x12], [0x13], [0x14], [0x15, 0x34], [0x16, 0x34], [0x17],
     [0x18], [0x19, 0x34, 0x12], [0x1A], [0x1B], [0x1C], [0x1D, 0x34, 0x12],
     [0x1E, 0x34, 0x12], [0x1F]].map decoded =
    [.bpl 0x34, .ora (.mem (.zpiy 0x34)), .unassigned12, .unassigned13, .unassigned14,
     .ora (.mem (.zpx 0x34)), .asl (.mem (.zpx 0x34)), .unassigned17, .clc,
     .ora (.mem (.absy 0x1234)), .unassigned1A, .unassigned1B, .unassigned1C,
     .ora (.mem (.absx 0x1234)), .asl (.mem (.absx 0x1234)), .unassigned1F].map some := by
  decide

theorem test_decode_row_2 :
    [[0x20], [0x21, 0x34], [0x22], [0x23], [0x24], [0x25, 0x34], [0x26, 0x34], [0x27], [0x28],
     [0x29, 0x34], [0x2A], [0x2B], [0x2C], [0x2D, 0x34, 0x12], [0x2E, 0x34, 0x12], [0x2F]].map decoded =
    [.unassigned20, .and (.mem (.zpxi 0x34)), .unassigned22, .unassigned23, .unassigned24,
     .and (.mem (.zp 0x34)), .rol (.mem (.zp 0x34)), .unassigned27, .plp, .and (.imm 0x34),
     .rol .acc, .unassigned2B, .unassigned2C, .and (.mem (.abs 0x1234)),
     .rol (.mem (.abs 0x1234)), .unassigned2F].map some := by
  decide

theorem test_decode_row_3 :
    [[0x30, 0x34], [0x31, 0x34], [0x32], [0x33], [0x34], [0x35, 0x34], [0x36, 0x34], [0x37],
     [0x38], [0x39, 0x34, 0x12], [0x3A], [0x3B], [0x3C], [0x3D, 0x34, 0x12],
     [0x3E, 0x34, 0x12], [0x3F]].map decoded =
    [.bmi 0x34, .and (.mem (.zpiy 0x34)), .unassigned32, .unassigned33, .unassigned34,
     .and (.mem (.zpx 0x34)), .rol (.mem (.zpx 0x34)), .unassigned37, .sec,
     .and (.mem (.absy 0x1234)), .unassigned3A, .unassigned3B, .unassigned3C,
     .and (.mem (.absx 0x1234)), .rol (.mem (.absx 0x1234)), .unassigned3F].map some := by
  decide

theorem test_decode_row_4 :
    [[0x40], [0x41, 0x34], [0x42], [0x43], [0x44], [0x45, 0x34], [0x46, 0x34], [0x47], [0x48],
     [0x49, 0x34], [0x4A], [0x4B], [0x4C], [0x4D, 0x34, 0x12], [0x4E, 0x34, 0x12], [0x4F]].map decoded =
    [.unassigned40, .eor (.mem (.zpxi 0x34)), .unassigned42, .unassigned43, .unassigned44,
     .eor (.mem (.zp 0x34)), .lsr (.mem (.zp 0x34)), .unassigned47, .pha, .eor (.imm 0x34),
     .lsr .acc, .unassigned4B, .unassigned4C, .eor (.mem (.abs 0x1234)),
     .lsr (.mem (.abs 0x1234)), .unassigned4F].map some := by
  decide

theorem test_decode_row_5 :
    [[0x50, 0x34], [0x51, 0x34], [0x52], [0x53], [0x54], [0x55, 0x34], [0x56, 0x34], [0x57],
     [0x58], [0x59, 0x34, 0x12], [0x5A], [0x5B], [0x5C], [0x5D, 0x34, 0x12],
     [0x5E, 0x34, 0x12], [0x5F]].map decoded =
    [.bvc 0x34, .eor (.mem (.zpiy 0x34)), .unassigned52, .unassigned53, .unassigned54,
     .eor (.mem (.zpx 0x34)), .lsr (.mem (.zpx 0x34)), .unassigned57, .cli,
     .eor (.mem (.absy 0x1234)), .unassigned5A, .unassigned5B, .unassigned5C,
     .eor (.mem (.absx 0x1234)), .lsr (.mem (.absx 0x1234)), .unassigned5F].map some := by
  decide

theorem test_decode_row_6 :
    [[0x60], [0x61, 0x34], [0x62], [0x63], [0x64], [0x65, 0x34], [0x66, 0x34], [0x67], [0x68],
     [0x69, 0x34], [0x6A], [0x6B], [0x6C], [0x6D, 0x34, 0x12], [0x6E, 0x34, 0x12], [0x6F]].map decoded =
    [.unassigned60, .adc (.mem (.zpxi 0x34)), .unassigned62, .unassigned63, .unassigned64,
     .adc (.mem (.zp 0x34)), .ror (.mem (.zp 0x34)), .unassigned67, .pla, .adc (.imm 0x34),
     .ror .acc, .unassigned6B, .unassigned6C, .adc (.mem (.abs 0x1234)),
     .ror (.mem (.abs 0x1234)), .unassigned6F].map some := by
  decide

theorem test_decode_row_7 :
    [[0x70, 0x34], [0x71, 0x34], [0x72], [0x73], [0x74], [0x75, 0x34], [0x76, 0x34], [0x77],
     [0x78], [0x79, 0x34, 0x12], [0x7A], [0x7B], [0x7C], [0x7D, 0x34, 0x12],
     [0x7E, 0x34, 0x12], [0x7F]].map decoded =
    [.bvs 0x34, .adc (.mem (.zpiy 0x34)), .unassigned72, .unassigned73, .unassigned74,
     .adc (.mem (.zpx 0x34)), .ror (.mem (.zpx 0x34)), .unassigned77, .sei,
     .adc (.mem (.absy 0x1234)), .unassigned7A, .unassigned7B, .unassigned7C,
     .adc (.mem (.absx 0x1234)), .ror (.mem (.absx 0x1234)), .unassigned7F].map some := by
  decide

theorem test_decode_row_8 :
    [[0x80], [0x81, 0x34], [0x82], [0x83], [0x84, 0x34], [0x85, 0x34], [0x86, 0x34], [0x87],
     [0x88], [0x89], [0x8A], [0x8B], [0x8C, 0x34, 0x12], [0x8D, 0x34, 0x12],
     [0x8E, 0x34, 0x12], [0x8F]].map decoded =
    [.unassigned80, .sta (.zpxi 0x34), .unassigned82, .unassigned83, .sty (.zp 0x34),
     .sta (.zp 0x34), .stx (.zp 0x34), .unassigned87, .dey, .unassigned89, .txa,
     .unassigned8B, .sty (.abs 0x1234), .sta (.abs 0x1234), .stx (.abs 0x1234), .unassigned8F].map some := by
  decide

theorem test_decode_row_9 :
    [[0x90, 0x34], [0x91, 0x34], [0x92], [0x93], [0x94, 0x34], [0x95, 0x34], [0x96, 0x34],
     [0x97], [0x98], [0x99, 0x34, 0x12], [0x9A], [0x9B], [0x9C], [0x9D, 0x34, 0x12], [0x9E],
     [0x9F]].map decoded =
    [.bcc 0x34, .sta (.zpiy 0x34), .unassigned92, .unassigned93, .sty (.zpx 0x34),
     .sta (.zpx 0x34), .stx (.zpy 0x34), .unassigned97, .tya, .sta (.absy 0x1234), .txs,
     .unassigned9B, .unassigned9C, .sta (.absx 0x1234), .unassigned9E, .unassigned9F].map some := by
  decide

theorem test_decode_row_A :
    [[0xA0, 0x34], [0xA1, 0x34], [0xA2, 0x34], [0xA3], [0xA4, 0x34], [0xA5, 0x34],
     [0xA6, 0x34], [0xA7], [0xA8], [0xA9, 0x34], [0xAA], [0xAB], [0xAC, 0x34, 0x12],
     [0xAD, 0x34, 0x12], [0xAE, 0x34, 0x12], [0xAF]].map decoded =
    [.ldy (.imm 0x34), .lda (.mem (.zpxi 0x34)), .ldx (.imm 0x34), .unassignedA3,
     .ldy (.mem (.zp 0x34)), .lda (.mem (.zp 0x34)), .ldx (.mem (.zp 0x34)), .unassignedA7,
     .tay, .lda (.imm 0x34), .tax, .unassignedAB, .ldy (.mem (.abs 0x1234)),
     .lda (.mem (.abs 0x1234)), .ldx (.mem (.abs 0x1234)), .unassignedAF].map some := by
  decide

theorem test_decode_row_B :
    [[0xB0, 0x34], [0xB1, 0x34], [0xB2], [0xB3], [0xB4, 0x34], [0xB5, 0x34], [0xB6, 0x34],
     [0xB7], [0xB8], [0xB9, 0x34, 0x12], [0xBA], [0xBB], [0xBC, 0x34, 0x12],
     [0xBD, 0x34, 0x12], [0xBE, 0x34, 0x12], [0xBF]].map decoded =
    [.bcs 0x34, .lda (.mem (.zpiy 0x34)), .unassignedB2, .unassignedB3,
     .ldy (.mem (.zpx 0x34)), .lda (.mem (.zpx 0x34)), .ldx (.mem (.zpy 0x34)), .unassignedB7,
     .clv, .lda (.mem (.absy 0x1234)), .tsx, .unassignedBB, .ldy (.mem (.absx 0x1234)),
     .lda (.mem (.absx 0x1234)), .ldx (.mem (.absy 0x1234)), .unassignedBF].map some := by
  decide

theorem test_decode_row_C :
    [[0xC0, 0x34], [0xC1, 0x34], [0xC2], [0xC3], [0xC4, 0x34], [0xC5, 0x34], [0xC6, 0x34],
     [0xC7], [0xC8], [0xC9, 0x34], [0xCA], [0xCB], [0xCC, 0x34, 0x12], [0xCD, 0x34, 0x12],
     [0xCE, 0x34, 0x12], [0xCF]].map decoded =
    [.cpy (.imm 0x34), .cmp (.mem (.zpxi 0x34)), .unassignedC2, .unassignedC3,
     .cpy (.mem (.zp 0x34)), .cmp (.mem (.zp 0x34)), .dec (.zp 0x34), .unassignedC7, .iny,
     .cmp (.imm 0x34), .dex, .unassignedCB, .cpy (.mem (.abs 0x1234)),
     .cmp (.mem (.abs 0x1234)), .dec (.abs 0x1234), .unassignedCF].map some := by
  decide

theorem test_decode_row_D :
    [[0xD0, 0x34], [0xD1, 0x34], [0xD2], [0xD3], [0xD4], [0xD5, 0x34], [0xD6, 0x34], [0xD7],
     [0xD8], [0xD9, 0x34, 0x12], [0xDA], [0xDB], [0xDC], [0xDD, 0x34, 0x12],
     [0xDE, 0x34, 0x12], [0xDF]].map decoded =
    [.bne 0x34, .cmp (.mem (.zpiy 0x34)), .unassignedD2, .unassignedD3, .unassignedD4,
     .cmp (.mem (.zpx 0x34)), .dec (.zpx 0x34), .unassignedD7, .cld,
     .cmp (.mem (.absy 0x1234)), .unassignedDA, .unassignedDB, .unassignedDC,
     .cmp (.mem (.absx 0x1234)), .dec (.absx 0x1234), .unassignedDF].map some := by
  decide

theorem test_decode_row_E :
    [[0xE0, 0x34], [0xE1, 0x34], [0xE2], [0xE3], [0xE4, 0x34], [0xE5, 0x34], [0xE6, 0x34],
     [0xE7], [0xE8], [0xE9, 0x34], [0xEA], [0xEB], [0xEC, 0x34, 0x12], [0xED, 0x34, 0x12],
     [0xEE, 0x34, 0x12], [0xEF]].map decoded =
    [.cpx (.imm 0x34), .sbc (.mem (.zpxi 0x34)), .unassignedE2, .unassignedE3,
     .cpx (.mem (.zp 0x34)), .sbc (.mem (.zp 0x34)), .inc (.zp 0x34), .unassignedE7, .inx,
     .sbc (.imm 0x34), .nop, .unassignedEB, .cpx (.mem (.abs 0x1234)),
     .sbc (.mem (.abs 0x1234)), .inc (.abs 0x1234), .unassignedEF].map some := by
  decide

theorem test_decode_row_F :
    [[0xF0, 0x34], [0xF1, 0x34], [0xF2], [0xF3], [0xF4], [0xF5, 0x34], [0xF6, 0x34], [0xF7],
     [0xF8], [0xF9, 0x34, 0x12], [0xFA], [0xFB], [0xFC], [0xFD, 0x34, 0x12],
     [0xFE, 0x34, 0x12], [0xFF]].map decoded =
    [.beq 0x34, .sbc (.mem (.zpiy 0x34)), .unassignedF2, .unassignedF3, .unassignedF4,
     .sbc (.mem (.zpx 0x34)), .inc (.zpx 0x34), .unassignedF7, .sed,
     .sbc (.mem (.absy 0x1234)), .unassignedFA, .unassignedFB, .unassignedFC,
     .sbc (.mem (.absx 0x1234)), .inc (.absx 0x1234), .unassignedFF].map some := by
  decide

/-! ### One step of each instruction (T<n> of the spec, named in each comment) -/

/-- Whether one step answers a next state of which a check holds. -/
def oneStep (s : State) (check : State → Bool) : Bool :=
  match step s with
  | .next t => check t
  | .fault _ => false
  | .refused _ => false

/-- T48, `LDA ($FF,X)`. -/
theorem test_lda_pointer_at_ff : oneStep
    { State.reset with
      x := 0x00,
      mem := [(0x0000, 0x56), (0x00FF, 0x34), (0x0100, 0x12), (0x1234, 0x41), (0x5634, 0x42)],
      rom := [0xA1, 0xFF] }
    (fun t => t.a == 0x41 && t.x == 0x00 && t.p == 0x24 && t.pc == 0x0002) = true := by decide

/-- T54, `LDA ($FF),Y`. -/
theorem test_lda_pointer_wraps : oneStep
    { State.reset with
      y := 0x01,
      mem := [(0x0000, 0x30), (0x0100, 0x20), (0x2001, 0x46), (0x3001, 0x47)],
      rom := [0xB1, 0xFF],
      params := { Params.default with zpPtrWrap := true } }
    (fun t => t.a == 0x47 && t.y == 0x01 && t.p == 0x24 && t.pc == 0x0002) = true := by decide

/-- T39, `LDX $FF,Y`. -/
theorem test_ldx : oneStep
    { State.reset with
      y := 0x01,
      mem := [(0x0000, 0x38), (0x0100, 0xBB)],
      rom := [0xB6, 0xFF] }
    (fun t => t.x == 0x38 && t.y == 0x01 && t.p == 0x24 && t.pc == 0x0002) = true := by decide

/-- T65, `LDY $10,X`. -/
theorem test_ldy : oneStep { State.reset with x := 0x01, mem := [(0x0011, 0xC0)], rom := [0xB4, 0x10] }
    (fun t => t.x == 0x01 && t.y == 0xC0 && t.p == 0xA4 && t.pc == 0x0002) = true := by decide

/-- T71, `STA $FFFF,Y`. -/
theorem test_sta : oneStep { State.reset with a := 0x5B, y := 0x01, rom := [0x99, 0xFF, 0xFF] }
    (fun t => t.a == 0x5B && t.y == 0x01 && t.p == 0x24 && t.pc == 0x0003 && t.readByte 0x0000 == 0x5B) = true := by decide

/-- T73, `STX $F0,Y`. -/
theorem test_stx : oneStep { State.reset with x := 0x06, y := 0x20, rom := [0x96, 0xF0] }
    (fun t => t.x == 0x06 && t.y == 0x20 && t.p == 0x24 && t.pc == 0x0002 && t.readByte 0x0010 == 0x06) = true := by decide

/-- T76, `STY $FF,X`. -/
theorem test_sty : oneStep { State.reset with x := 0x01, y := 0x7F, rom := [0x94, 0xFF] }
    (fun t => t.x == 0x01 && t.y == 0x7F && t.p == 0x24 && t.pc == 0x0002 && t.readByte 0x0000 == 0x7F) = true := by decide

/-- T79, `TAX`. -/
theorem test_tax : oneStep { State.reset with a := 0x00, x := 0x33, rom := [0xAA] }
    (fun t => t.a == 0x00 && t.x == 0x00 && t.p == 0x26 && t.pc == 0x0001) = true := by decide

/-- T80, `TAY`. -/
theorem test_tay : oneStep { State.reset with a := 0x80, y := 0x00, rom := [0xA8] }
    (fun t => t.a == 0x80 && t.y == 0x80 && t.p == 0xA4 && t.pc == 0x0001) = true := by decide

/-- T81, `TXA`. -/
theorem test_txa : oneStep { State.reset with a := 0x00, x := 0xFF, rom := [0x8A] }
    (fun t => t.a == 0xFF && t.x == 0xFF && t.p == 0xA4 && t.pc == 0x0001) = true := by decide

/-- T82, `TYA`. -/
theorem test_tya : oneStep { State.reset with a := 0xFF, y := 0x10, p := 0xA4, rom := [0x98] }
    (fun t => t.a == 0x10 && t.y == 0x10 && t.p == 0x24 && t.pc == 0x0001) = true := by decide

/-- T84, `TSX`. -/
theorem test_tsx : oneStep { State.reset with x := 0x11, sp := 0x00, rom := [0xBA] }
    (fun t => t.x == 0x00 && t.sp == 0x00 && t.p == 0x26 && t.pc == 0x0001) = true := by decide

/-- T86, `TXS`. -/
theorem test_txs : oneStep { State.reset with x := 0x80, sp := 0x55, rom := [0x9A] }
    (fun t => t.x == 0x80 && t.sp == 0x80 && t.p == 0x24 && t.pc == 0x0001) = true := by decide

/-- T92, `ADC #$80`. -/
theorem test_adc_overflow : oneStep { State.reset with a := 0x80, rom := [0x69, 0x80] }
    (fun t => t.a == 0x00 && t.p == 0x67 && t.pc == 0x0002) = true := by decide

/-- T97, `ADC #$01`. -/
theorem test_adc_decimal : oneStep { State.reset with a := 0x09, p := 0x2C, rom := [0x69, 0x01] }
    (fun t => t.a == 0x0A && t.p == 0x2C && t.pc == 0x0002) = true := by decide

/-- T116, `SBC #$80`. -/
theorem test_sbc_heuristic : oneStep { State.reset with a := 0xFF, p := 0x25, rom := [0xE9, 0x80] }
    (fun t => t.a == 0x7F && t.p == 0x65 && t.pc == 0x0002) = true := by decide

/-- T111, `SBC #$80`. -/
theorem test_sbc_misses_overflow : oneStep { State.reset with a := 0x7F, p := 0x25, rom := [0xE9, 0x80] }
    (fun t => t.a == 0xFF && t.p == 0xA4 && t.pc == 0x0002) = true := by decide

/-- T129, `CMP #$01`. -/
theorem test_cmp_signed : oneStep { State.reset with a := 0x80, p := 0x25, rom := [0xC9, 0x01] }
    (fun t => t.a == 0x80 && t.p == 0x24 && t.pc == 0x0002) = true := by decide

/-- T136, `CMP #$01`. -/
theorem test_cmp_diff_bit7 : oneStep
    { State.reset with
      a := 0x00,
      rom := [0xC9, 0x01],
      params := { Params.default with cmpNPolicy := .diffBit7 } }
    (fun t => t.a == 0x00 && t.p == 0xA4 && t.pc == 0x0002) = true := by decide

/-- T146, `CPX $10`. -/
theorem test_cpx : oneStep
    { State.reset with
      x := 0x80,
      p := 0x25,
      mem := [(0x0010, 0x7F)],
      rom := [0xE4, 0x10] }
    (fun t => t.x == 0x80 && t.p == 0x24 && t.pc == 0x0002) = true := by decide

/-- T149, `CPY $10`. -/
theorem test_cpy : oneStep { State.reset with y := 0x7F, mem := [(0x0010, 0x80)], rom := [0xC4, 0x10] }
    (fun t => t.y == 0x7F && t.p == 0x25 && t.pc == 0x0002) = true := by decide

/-- T153, `AND #$0F`. -/
theorem test_and : oneStep { State.reset with a := 0xF0, p := 0xA5, rom := [0x29, 0x0F] }
    (fun t => t.a == 0x00 && t.p == 0x27 && t.pc == 0x0002) = true := by decide

/-- T168, `ORA ($20,X)`. -/
theorem test_ora : oneStep
    { State.reset with
      a := 0x01,
      x := 0x04,
      mem := [(0x0025, 0x80), (0x8000, 0x20)],
      rom := [0x01, 0x20] }
    (fun t => t.a == 0x21 && t.x == 0x04 && t.p == 0x24 && t.pc == 0x0002) = true := by decide

/-- T178, `EOR ($20),Y`. -/
theorem test_eor : oneStep
    { State.reset with
      a := 0x70,
      y := 0x01,
      mem := [(0x0021, 0x80), (0x8001, 0xF0)],
      rom := [0x51, 0x20] }
    (fun t => t.a == 0x80 && t.y == 0x01 && t.p == 0xA4 && t.pc == 0x0002) = true := by decide

/-- T185, `ASL $0200,X`. -/
theorem test_asl : oneStep
    { State.reset with
      x := 0x01,
      mem := [(0x0201, 0xAA)],
      rom := [0x1E, 0x00, 0x02] }
    (fun t => t.x == 0x01 && t.p == 0x25 && t.pc == 0x0003 && t.readByte 0x0201 == 0x54) = true := by decide

/-- T186, `LSR A`. -/
theorem test_lsr : oneStep { State.reset with a := 0x01, rom := [0x4A] }
    (fun t => t.a == 0x00 && t.p == 0x27 && t.pc == 0x0001) = true := by decide

/-- T199, `ROL $0200,X`. -/
theorem test_rol : oneStep
    { State.reset with
      x := 0x01,
      p := 0x25,
      mem := [(0x0201, 0x7F)],
      rom := [0x3E, 0x00, 0x02] }
    (fun t => t.x == 0x01 && t.p == 0xA4 && t.pc == 0x0003 && t.readByte 0x0201 == 0xFF) = true := by decide

/-- T204, `ROR $FF,X`. -/
theorem test_ror : oneStep { State.reset with x := 0x02, p := 0x25, mem := [], rom := [0x76, 0xFF] }
    (fun t => t.x == 0x02 && t.p == 0xA4 && t.pc == 0x0002 && t.readByte 0x0001 == 0x80) = true := by decide

/-- T208, `INC $10`. -/
theorem test_inc : oneStep { State.reset with p := 0x65, mem := [(0x0010, 0x7F)], rom := [0xE6, 0x10] }
    (fun t => t.p == 0xE5 && t.pc == 0x0002 && t.readByte 0x0010 == 0x80) = true := by decide

/-- T212, `DEC $10`. -/
theorem test_dec : oneStep { State.reset with mem := [], rom := [0xC6, 0x10] }
    (fun t => t.p == 0xA4 && t.pc == 0x0002 && t.readByte 0x0010 == 0xFF) = true := by decide

/-- T218, `INX`. -/
theorem test_inx : oneStep { State.reset with x := 0x7F, rom := [0xE8] }
    (fun t => t.x == 0x80 && t.p == 0xA4 && t.pc == 0x0001) = true := by decide

/-- T220, `INY`. -/
theorem test_iny : oneStep { State.reset with y := 0xFF, p := 0x25, rom := [0xC8] }
    (fun t => t.y == 0x00 && t.p == 0x27 && t.pc == 0x0001) = true := by decide

/-- T221, `DEX`. -/
theorem test_dex : oneStep { State.reset with x := 0x00, p := 0x25, rom := [0xCA] }
    (fun t => t.x == 0xFF && t.p == 0xA5 && t.pc == 0x0001) = true := by decide

/-- T223, `DEY`. -/
theorem test_dey : oneStep { State.reset with y := 0x80, p := 0xA4, rom := [0x88] }
    (fun t => t.y == 0x7F && t.p == 0x24 && t.pc == 0x0001) = true := by decide

/-- T226, `PHA`. -/
theorem test_pha : oneStep { State.reset with a := 0x00, sp := 0x00, rom := [0x48] }
    (fun t => t.a == 0x00 && t.sp == 0xFF && t.p == 0x24 && t.pc == 0x0001 && t.readByte 0x0100 == 0x00) = true := by decide

/-- T228, `PLA`. -/
theorem test_pla : oneStep
    { State.reset with
      a := 0x55,
      sp := 0xFF,
      mem := [(0x0100, 0x80)],
      rom := [0x68] }
    (fun t => t.a == 0x80 && t.sp == 0x00 && t.p == 0xA4 && t.pc == 0x0001) = true := by decide

/-- T230, `PHP`. -/
theorem test_php : oneStep { State.reset with sp := 0xFD, p := 0xE5, rom := [0x08] }
    (fun t => t.sp == 0xFC && t.p == 0xE5 && t.pc == 0x0001 && t.readByte 0x01FD == 0xE5) = true := by decide

/-- T232, `PHP`. -/
theorem test_php_or_mask : oneStep
    { State.reset with
      sp := 0xFD,
      rom := [0x08],
      params := { Params.default with phpOrMask := 0x30 } }
    (fun t => t.sp == 0xFC && t.p == 0x24 && t.pc == 0x0001 && t.readByte 0x01FD == 0x34) = true := by decide

/-- T234, `PLP`. -/
theorem test_plp : oneStep { State.reset with sp := 0xFC, mem := [(0x01FD, 0xC3)], rom := [0x28] }
    (fun t => t.sp == 0xFD && t.p == 0xC3 && t.pc == 0x0001) = true := by decide

/-- T237, `PLP`. -/
theorem test_plp_keep_mask : oneStep
    { State.reset with
      sp := 0xFC,
      mem := [(0x01FD, 0xDF)],
      rom := [0x28],
      params := { Params.default with plpKeepMask := 0x30 } }
    (fun t => t.sp == 0xFD && t.p == 0xEF && t.pc == 0x0001) = true := by decide

/-- T239, `CLC`. -/
theorem test_clc : oneStep { State.reset with p := 0xFF, rom := [0x18] }
    (fun t => t.p == 0xFE && t.pc == 0x0001) = true := by decide

/-- T241, `SEC`. -/
theorem test_sec : oneStep { State.reset with rom := [0x38] }
    (fun t => t.p == 0x25 && t.pc == 0x0001) = true := by decide

/-- T242, `CLI`. -/
theorem test_cli : oneStep { State.reset with rom := [0x58] }
    (fun t => t.p == 0x20 && t.pc == 0x0001) = true := by decide

/-- T243, `SEI`. -/
theorem test_sei : oneStep { State.reset with p := 0x20, rom := [0x78] }
    (fun t => t.p == 0x24 && t.pc == 0x0001) = true := by decide

/-- T244, `CLD`. -/
theorem test_cld : oneStep { State.reset with p := 0x2C, rom := [0xD8] }
    (fun t => t.p == 0x24 && t.pc == 0x0001) = true := by decide

/-- T245, `SED`. -/
theorem test_sed : oneStep { State.reset with rom := [0xF8] }
    (fun t => t.p == 0x2C && t.pc == 0x0001) = true := by decide

/-- T246, `CLV`. -/
theorem test_clv : oneStep { State.reset with p := 0xE4, rom := [0xB8] }
    (fun t => t.p == 0xA4 && t.pc == 0x0001) = true := by decide

/-- T248, `NOP`. -/
theorem test_nop : oneStep
    { State.reset with
      a := 0x01,
      x := 0x02,
      y := 0x03,
      sp := 0x04,
      p := 0xE7,
      rom := [0xEA] }
    (fun t => t.a == 0x01 && t.x == 0x02 && t.y == 0x03 && t.sp == 0x04 && t.p == 0xE7 && t.pc == 0x0001) = true := by decide

/-- T250, `BCC $FA`. -/
theorem test_bcc : oneStep { State.reset with pc := 0x0004, rom := [0xEA, 0xEA, 0xEA, 0xEA, 0x90, 0xFA] }
    (fun t => t.p == 0x24 && t.pc == 0x0000) = true := by decide

/-- T252, `BCS $FA`. -/
theorem test_bcs : oneStep
    { State.reset with
      pc := 0x0004,
      p := 0x25,
      rom := [0xEA, 0xEA, 0xEA, 0xEA, 0xB0, 0xFA] }
    (fun t => t.p == 0x25 && t.pc == 0x0000) = true := by decide

/-- T256, `BEQ $FE`. -/
theorem test_beq : oneStep { State.reset with p := 0x26, rom := [0xF0, 0xFE] }
    (fun t => t.p == 0x26 && t.pc == 0x0000) = true := by decide

/-- T257, `BNE $05`. -/
theorem test_bne : oneStep { State.reset with rom := [0xD0, 0x05] }
    (fun t => t.p == 0x24 && t.pc == 0x0007) = true := by decide

/-- T260, `BMI $80`. -/
theorem test_bmi : oneStep { State.reset with p := 0xA4, rom := [0x30, 0x80] }
    (fun t => t.p == 0xA4 && t.pc == 0xFF82) = true := by decide

/-- T262, `BPL $7F`. -/
theorem test_bpl : oneStep { State.reset with rom := [0x10, 0x7F] }
    (fun t => t.p == 0x24 && t.pc == 0x0081) = true := by decide

/-- T265, `BVC $02`. -/
theorem test_bvc : oneStep { State.reset with p := 0x64, rom := [0x50, 0x02] }
    (fun t => t.p == 0x64 && t.pc == 0x0002) = true := by decide

/-- T267, `BVS $02`. -/
theorem test_bvs : oneStep { State.reset with rom := [0x70, 0x02] }
    (fun t => t.p == 0x24 && t.pc == 0x0002) = true := by decide

/-! ### The halt byte, unassigned opcodes, the ends of a run -/

/-- T14. -/
theorem test_hlt : oneStep { State.reset with a := 0x11, rom := [0x00, 0xA9, 0x05] }
    (fun t => t.a == 0x11 && t.p == 0x24 && t.pc == 0x0000 && t.run == .halted .hlt) = true := by decide

/-- T249: a sample of the unassigned opcodes, under nop1. -/
theorem test_unassigned_nop1 :
    [0x02, 0x03, 0x04, 0x0C, 0x1A, 0x20, 0x3A, 0x40, 0x4C, 0x60, 0x64, 0x6C, 0x7C, 0x80, 0x89, 0x9C,
     0xDA, 0xDB, 0xCB, 0xFF].all (fun op =>
      oneStep { State.reset with a := 0x01, p := 0xE7, rom := [op] }
        (fun t => t.a == 0x01 && t.p == 0xE7 && t.pc == 0x0001 && t.run == .running)) = true := by decide

/-- T21. -/
theorem test_unassigned_refuse : oneStep
    { State.reset with
      rom := [0x02, 0xEA, 0x00],
      params := { Params.default with unassignedPolicy := .refuse } }
    (fun t => t.p == 0x24 && t.pc == 0x0000 && t.run == .faulted .unassignedOpcode) = true := by decide

/-- T11: the end of an empty stream. -/
theorem test_end_of_rom : oneStep State.reset
    (fun t => t.pc == 0x0000 && t.p == 0x24 && t.run == .halted .endOfRom) = true := by decide

/-- T17: the second operand byte is missing. -/
theorem test_truncated : oneStep { State.reset with a := 0x11, rom := [0xAD, 0x34] }
    (fun t => t.a == 0x11 && t.pc == 0x0000 && t.run == .faulted .truncatedInstruction) = true := by decide

/-- A step is the one stop of an ended core (spec/40_dispatch.md R106). -/
theorem test_no_step_after_hlt : step { State.reset with run := .halted .hlt } = .fault .runEnded := rfl

/-- The initial state (T9, spec/10_state.md R40). -/
theorem test_reset : State.reset.p = 0b00100100 ∧ State.reset.pc = 0 ∧ State.reset.run = .running ∧
    State.reset.readByte 0xFFFF = 0 := by decide

/-- The host's placing of a word: LDA #$05 runs first after reset (T7). -/
theorem test_with_fetch_word : decodeTableWord 16 0x05A9 = some (.lda (.imm 0x05)) ∧
    oneStep (State.reset.withFetchWord 16 0x05A9) (fun t => t.a == 0x05 && t.pc == 0x0002) = true := by
  decide

/-- A word shorter than its instruction: the operand bytes are 0. -/
theorem test_short_word : decodeTableWord 8 0xAD = some (.lda (.mem (.abs 0x0000))) := by decide

/-! ### Ill-formed instructions: the check refuses each -/

/-- LDA and STA have no ZPY, LDX no ZPX or (zp) form, LDY no ZPY (spec/30_encoding.md R83). -/
theorem test_ill_formed_loads_stores :
    [Instr.lda (.mem (.zpy 0x10)), .ldx (.mem (.zpx 0x10)), .ldx (.mem (.absx 0x0010)),
     .ldx (.mem (.zpxi 0x10)), .ldy (.mem (.zpy 0x10)), .ldy (.mem (.zpiy 0x10)), .sta (.zpy 0x10),
     .stx (.zpx 0x10), .stx (.absy 0x0010), .sty (.zpy 0x10), .sty (.absx 0x0010)].all
      (fun i => !i.wellFormed) = true := by decide

/-- No arithmetic or logic form has ZPY; CPX and CPY have no indexed form (spec/30_encoding.md R83). -/
theorem test_ill_formed_arithmetic_logic :
    [Instr.adc (.mem (.zpy 0x10)), .sbc (.mem (.zpy 0x10)), .cmp (.mem (.zpy 0x10)),
     .cpx (.mem (.zpx 0x10)), .cpy (.mem (.absx 0x0010)), .and (.mem (.zpy 0x10)),
     .ora (.mem (.zpy 0x10)), .eor (.mem (.zpy 0x10))].all (fun i => !i.wellFormed) = true := by decide

/-- Shifts, INC and DEC have no Y-indexed or indirect form (spec/30_encoding.md R83). -/
theorem test_ill_formed_read_modify_write :
    [Instr.asl (.mem (.zpy 0x10)), .lsr (.mem (.absy 0x0010)), .rol (.mem (.zpxi 0x10)),
     .ror (.mem (.zpiy 0x10)), .inc (.absy 0x0010), .dec (.zpy 0x10)].all
      (fun i => !i.wellFormed) = true := by decide

/-- An ill-formed instruction has no encoding and no effect. -/
theorem test_ill_formed_refused : encode (.lda (.mem (.zpy 0x10))) = none ∧
    exec (.lda (.mem (.zpy 0x10))) State.reset = .refused .unsupportedCombination := ⟨rfl, rfl⟩

/-! ### The direct-dispatch port -/

/-- Whether a request answers a next state of which a check holds. -/
def dispatched (r : Request) (s : State) (check : State → Bool) : Bool :=
  match directDispatch r s with
  | .next t => check t
  | .fault _ => false
  | .refused _ => false

/-- T25, T26, T28. -/
theorem test_dispatch :
    dispatched ⟨"ADC", .imm, some 0x50⟩ { State.reset with a := 0x50, pc := 0x1234 }
      (fun t => t.a == 0xA0 && t.p == 0xE4 && t.pc == 0x1234) = true ∧
    dispatched ⟨"BNE", .rel, some 0xFB⟩ { State.reset with pc := 0x0010 }
      (fun t => t.pc == 0x000B) = true ∧
    dispatched ⟨"STA", .abs, some 0x0200⟩ { State.reset with a := 0x7E, pc := 0x0005 }
      (fun t => t.readByte 0x0200 == 0x7E && t.pc == 0x0005) = true := by decide

/-- T29 to T33. -/
theorem test_dispatch_refuses (s : State) :
    directDispatch ⟨"LDA", .zpy, some 0x10⟩ s = .refused .unsupportedCombination ∧
    directDispatch ⟨"JMP", .abs, some 0x1234⟩ s = .refused .unknownMnemonic ∧
    directDispatch ⟨"LDA", .absi, some 0x1234⟩ s = .refused .unsupportedCombination ∧
    directDispatch ⟨"LDA", .imm, some 0x100⟩ s = .refused .operandOutOfRange ∧
    directDispatch ⟨"CLC", .imp, some 0x00⟩ s = .refused .operandSurplus ∧
    directDispatch ⟨"LDA", .imm, none⟩ s = .refused .operandMissing := ⟨rfl, rfl, rfl, rfl, rfl, rfl⟩

/-- INC reads, then writes; PLA reads at the incremented S; ZPIY fetches its pointer low byte first
(spec/20_memory.md R57). -/
theorem test_accesses_in_order :
    State.reset.accesses (.inc (.zp 0x10)) = [.read 0x0010, .write 0x0010] ∧
    State.reset.accesses .pla = [.read 0x0100] ∧
    State.reset.accesses (.sta (.zpiy 0xFF)) = [.read 0x00FF, .read 0x0100, .write 0x0000] := by
  decide

/-- Supplying ROM after a halt leaves the registers and the run state for the host to read; during a run it
is refused (spec/40_dispatch.md R112). -/
theorem test_supplyRom_fixes_only_rom :
    (match sessionAct (.supplyRom [0xEA]) ⟨(State.reset.setA 0x12).endRun (.halted .hlt), false⟩ with
      | .next g => g.state.a == 0x12 && g.state.run == .halted .hlt && g.state.rom == [0xEA]
      | _ => false) = true ∧
    sessionAct (.supplyRom [0xEA]) ⟨State.reset, true⟩ = .refused .runInProgress :=
  ⟨by decide, rfl⟩

/-! ### Width functions and the assembly notation -/

/-- T1. -/
theorem test_mask_signed :
    ([0, 127, 128, 255, 256, 511, -1, -128, -129, -256] : List Int).map (fun v => signed8 (mask8 v)) =
      [0, 127, -128, -1, 0, -1, -1, -128, 127, 0] := by decide

/-- T2. -/
theorem test_assembler_matrix :
    assemble "LDA $1234" = .ok [0xAD, 0x34, 0x12] ∧ assemble "LDA $12" = .ok [0xA5, 0x12] ∧
    assemble "LDA #$10" = .ok [0xA9, 0x10] ∧ assemble "LDA ($20,X)" = .ok [0xA1, 0x20] ∧
    assemble "LDA ($20),Y" = .ok [0xB1, 0x20] ∧ assemble "LDA $10,X" = .ok [0xB5, 0x10] :=
  ⟨rfl, rfl, rfl, rfl, rfl, rfl⟩

/-- The errors of spec/30_encoding.md R96. -/
theorem test_assembler_errors :
    assemble "LDA #$1G" = .error .numericParseError ∧
    assemble "LDA $123" = .error .addressingModeMismatch ∧
    assemble "LDX ($20),Y" = .error .unsupportedCombination ∧
    assemble "JMP $1234" = .error .unknownMnemonic := ⟨rfl, rfl, rfl, rfl⟩

/-! ### Witnesses: the hypotheses of each obligation can be met -/

/-- Every form of operand; the largest operand. -/
theorem test_witness_DecodeGivesBackEncodedInstruction :
    (Instr.lda (.mem (.abs 0xFFFF))).wellFormed = true ∧ (Instr.asl .acc).wellFormed = true ∧
    (Instr.bcc 0xFF).wellFormed = true := by decide

theorem test_witness_DecodedBytesAreTheEncoding :
    decode [0xAD, 0xFF, 0xFF, 0xEA] = .ok (.lda (.mem (.abs 0xFFFF)), [0xEA]) := rfl

theorem test_witness_FirstByteDeterminesLength :
    decode (0xA9 :: [0x00]) = .ok (.lda (.imm 0x00), []) ∧
    decode (0xA9 :: [0xFF, 0xEA]) = .ok (.lda (.imm 0xFF), [0xEA]) := ⟨rfl, rfl⟩

/-- The first and the last listed byte; the bytes 0x01 and 0xFE that are not listed. -/
theorem test_witness_HaltAndUnassignedBytesAreOneByteLong :
    0x02 ∈ unassignedBytes ∧ 0xFF ∈ unassignedBytes ∧
    0x01 ∉ unassignedBytes ∧ decode (0x01 :: [0x00]) = .ok (.ora (.mem (.zpxi 0x00)), []) ∧
    0xFE ∉ unassignedBytes ∧
    decode (0xFE :: [0x00, 0x00]) = .ok (.inc (.absx 0x0000), []) :=
  ⟨by decide, by decide, by decide, rfl, by decide, rfl⟩

theorem test_witness_ForwardMapIsInjectiveOnSupportedPairs :
    opcodeOf .ora .zpxi = some 0x01 ∧ opcodeOf .inc .absx = some 0xFE := ⟨rfl, rfl⟩

/-- A RUNNING core with a program of one NOP, and of one halt byte. -/
theorem test_witness_StepRunsTheDecodedInstruction :
    (State.reset.placeAtPc [0xEA]).run = .running ∧
    decode ((State.reset.placeAtPc [0xEA]).rom.drop (State.reset.placeAtPc [0xEA]).pc.toNat) =
      .ok (.nop, []) ∧
    decode ((State.reset.placeAtPc [0x00]).rom.drop (State.reset.placeAtPc [0x00]).pc.toNat) =
      .ok (.hlt, []) := ⟨rfl, rfl, rfl⟩

/-- The empty ROM, and PC just at its end. -/
theorem test_witness_StepAtEndOfStreamHalts :
    State.reset.run = .running ∧ State.reset.rom.length ≤ State.reset.pc.toNat ∧
    ({ State.reset with rom := [0xEA], pc := 0x0001 } : State).rom.length = (0x0001 : Word).toNat := by
  decide

/-- One operand byte of two, at the end of ROM. -/
theorem test_witness_StepOnTruncatedInstructionFaults :
    (State.reset.placeAtPc [0xAD, 0x34]).run = .running ∧
    (State.reset.placeAtPc [0xAD, 0x34]).rom[(State.reset.placeAtPc [0xAD, 0x34]).pc.toNat]? = some 0xAD ∧
    1 ≤ (opcodeShape 0xAD).operandBytes ∧
    (State.reset.placeAtPc [0xAD, 0x34]).rom.length =
      (State.reset.placeAtPc [0xAD, 0x34]).pc.toNat + (opcodeShape 0xAD).operandBytes :=
  ⟨rfl, rfl, by decide, rfl⟩

theorem test_witness_StepOnHaltByteHalts :
    (State.reset.placeAtPc [0x00]).run = .running ∧
    (State.reset.placeAtPc [0x00]).rom[(State.reset.placeAtPc [0x00]).pc.toNat]? = some 0x00 := ⟨rfl, rfl⟩

/-- Each way a run ends leaves a core whose run state is not RUNNING. -/
theorem test_witness_NoStepAfterTheRunEnded :
    (State.reset.endRun (.halted .hlt)).run ≠ .running ∧
    (State.reset.endRun (.halted .endOfRom)).run ≠ .running ∧
    (State.reset.endRun (.faulted .truncatedInstruction)).run ≠ .running ∧
    (State.reset.endRun (.faulted .unassignedOpcode)).run ≠ .running := by decide

theorem test_witness_RunningCoreAlwaysSteps : State.reset.run = .running := rfl

/-- A step into each of the four ends. -/
theorem test_witness_RunEndsOnlyInTheNamedWays :
    step State.reset = .next (State.reset.endRun (.halted .endOfRom)) ∧
    step (State.reset.placeAtPc [0x00]) = .next ((State.reset.placeAtPc [0x00]).endRun (.halted .hlt)) ∧
    step (State.reset.placeAtPc [0xA9]) =
      .next ((State.reset.placeAtPc [0xA9]).endRun (.faulted .truncatedInstruction)) ∧
    step { State.reset.placeAtPc [0x02] with params := ⟨.refuse, .unchanged, 0, 0, false, 0, 0, 0, 0xFF⟩ } =
      .next (State.endRun { State.reset.placeAtPc [0x02] with
        params := ⟨.refuse, .unchanged, 0, 0, false, 0, 0, 0, 0xFF⟩ } (.faulted .unassignedOpcode)) :=
  ⟨rfl, rfl, rfl, rfl⟩

/-- A RUNNING state, an ended one, and a run of one step from the first. -/
theorem test_witness_RunIsTheStepRepeated :
    State.reset.run = .running ∧ (State.reset.endRun (.halted .endOfRom)).run ≠ .running ∧
    runFor 1 State.reset = .next (State.reset.endRun (.halted .endOfRom)) := ⟨rfl, by decide, rfl⟩

/-- A step that stores: STA $10 with A = 0x80 (T68). -/
theorem test_witness_StepKeepsTheStateWellFormed :
    (State.wf { State.reset.placeAtPc [0x85, 0x10] with a := 0x80 }) = true ∧
    oneStep { State.reset.placeAtPc [0x85, 0x10] with a := 0x80 } (fun t => t.mem == [(0x10, 0x80)]) = true := by
  decide

theorem test_witness_HostActionsKeepTheStateWellFormed :
    State.reset.wf = true ∧ hostAct (.supplyRom [0xEA]) State.reset = .next (State.reset.setRom [0xEA]) ∧
    hostAct (.writeMem 0xFFFF 0x1FF) State.reset = .next (State.reset.writeByte 0xFFFF 0xFF) :=
  ⟨by decide, rfl, rfl⟩

/-- The longest ROM. -/
theorem test_witness_ResetStateIsWellFormed : (List.replicate 65536 (0xEA : Byte)).length ≤ 65536 :=
  Nat.le_of_eq List.length_replicate

theorem test_witness_StepNeverChangesRomOrParameters :
    step State.reset = .next (State.reset.endRun (.halted .endOfRom)) := rfl

/-- A change of each register: A by LDA and by a shift in mode ACC, X, Y, S, PC. -/
theorem test_witness_RegistersAreWrittenOnlyAsListed :
    [Instr.lda (.imm 0x01), .asl .acc].all (fun i =>
      match exec i { State.reset with a := 0x80 } with | .next t => t.a != 0x80 | _ => false) = true ∧
    (match exec .inx State.reset with | .next t => t.x != 0 | _ => false) = true ∧
    (match exec .dey State.reset with | .next t => t.y != 0 | _ => false) = true ∧
    (match exec .txs State.reset with | .next t => t.sp != 0xFF | _ => false) = true ∧
    (match exec (.bne 0x80) State.reset with | .next t => t.pc != 0 | _ => false) = true := by decide

/-- A change of a flag by its own instruction, and of N by a compare under diff_bit7. -/
theorem test_witness_FlagsAreWrittenOnlyAsTheMatrixSays :
    (match exec .sec State.reset with | .next t => t.flag .c != State.reset.flag .c | _ => false) = true ∧
    (match exec (.cmp (.imm 0x01))
        { State.reset with params := { Params.default with cmpNPolicy := .diffBit7 } } with
      | .next t => t.flag .n != State.reset.flag .n | _ => false) = true := by decide

theorem test_witness_MemoryWritesAreTheListedAccesses :
    State.reset.mem.wf = true ∧
    exec (.sta (.abs 0xFFFF)) State.reset = .next (State.reset.writeByte 0xFFFF 0x00) ∧
    Access.write 0x0000 ∉ State.reset.accesses (.sta (.abs 0xFFFF)) := ⟨by decide, rfl, by decide⟩

/-- Two memories that agree at the address LDA $10 reads and differ elsewhere. -/
theorem test_witness_EffectDependsOnlyOnListedReads :
    (Instr.lda (.mem (.zp 0x10))).wellFormed = true ∧ State.reset.mem.wf = true ∧
    Memory.wf [(0x20, 0x07)] = true ∧
    AgreeOnReads (State.reset.accesses (.lda (.mem (.zp 0x10)))) State.reset
      { State.reset with mem := [(0x20, 0x07)] } := by
  refine ⟨by decide, by decide, by decide, fun k hk => ?_⟩
  have e : k = 0x0010 := by simpa [State.accesses, State.readAccesses, State.pointerReads, State.ea, zext8] using hk
  subst e
  rfl

theorem test_witness_EntryPointsAgree :
    Request.resolve ⟨"LDA", .imm, some 0x05⟩ = .ok (.lda (.imm 0x05)) ∧
    (State.reset.placeAtPc [0xA9, 0x05]).run = .running ∧
    decode ((State.reset.placeAtPc [0xA9, 0x05]).rom.drop (State.reset.placeAtPc [0xA9, 0x05]).pc.toNat) =
      .ok (.lda (.imm 0x05), []) := ⟨rfl, rfl, rfl⟩

/-- A request whose handler writes PC, for a halted core with another instruction in ROM at PC. -/
theorem test_witness_PortRunsTheHandlerAlone :
    Request.resolve ⟨"BCC", .rel, some 0xFA⟩ = .ok (.bcc 0xFA) ∧
    ((State.reset.placeAtPc [0xEA]).endRun (.halted .hlt)).run = .halted .hlt := ⟨rfl, rfl⟩

/-- No operand byte, one, two; the largest values. -/
theorem test_witness_EveryPairCanBeRequested :
    (Instr.tax.entry = .pair .tax .imp ∧ Mnemonic.tax.supports .imp = true ∧ Instr.tax.operandBytes = []) ∧
    ((Instr.lda (.imm 0xFF)).entry = .pair .lda .imm ∧ Mnemonic.lda.supports .imm = true ∧
      (Instr.lda (.imm 0xFF)).operandBytes = [0xFF]) ∧
    ((Instr.lda (.mem (.abs 0xFFFF))).entry = .pair .lda .abs ∧ Mnemonic.lda.supports .abs = true ∧
      (Instr.lda (.mem (.abs 0xFFFF))).operandBytes = [0xFF, 0xFF]) := by decide

/-- Each refused case, at the first value outside the range. -/
theorem test_witness_PortRefusesBadRequests :
    Mnemonic.ofToken "JMP" = none ∧ Mnemonic.ofToken "LDA" = some .lda ∧
    Mnemonic.ofToken "CLC" = some .clc ∧ Mnemonic.lda.supports .absi = false ∧
    Mnemonic.lda.supports .imm = true ∧ 1 ≤ Mode.imm.operandBytes ∧
    Mnemonic.clc.supports .imp = true ∧ Mode.imp.operandBytes = 0 ∧
    Mode.imm.operandBytes = 1 ∧ 255 < 256 ∧
    Mnemonic.lda.supports .abs = true ∧ Mode.abs.operandBytes = 2 ∧ 65535 < 65536 := by decide

theorem test_witness_UnsupportedPairsAreRefused : (Instr.lda (.mem (.zpy 0xFF))).wellFormed = false := by
  decide

/-- Values on both sides of each mask. -/
theorem test_witness_HostWritesAreMasked : State.reset.mem.wf = true ∧
    ([-1, 0, 255, 256] : List Int).map mask8 = [0xFF, 0x00, 0xFF, 0x00] ∧
    ([-1, 65535, 65536] : List Int).map mask16 = [0xFFFF, 0xFFFF, 0x0000] := by decide

/-- Before a run, with a ROM that fits and the shortest that does not; and during a run. -/
theorem test_witness_SupplyingRomFixesOnlyTheStream :
    (HostSession.mk State.reset false).inRun = false ∧ ([0xEA] : List Byte).length ≤ 65536 ∧
    65536 < (List.replicate 65537 (0xEA : Byte)).length ∧
    (HostSession.mk State.reset true).inRun = true :=
  ⟨rfl, by decide, by rw [List.length_replicate]; decide, rfl⟩

/-- A poke during a run goes on in it, a reset ends it, and the step that halts ends it. -/
theorem test_witness_RomStaysDuringARun :
    sessionAct (.writeReg .a 1) ⟨State.reset, true⟩ = .next ⟨State.reset.setA 1, true⟩ ∧
    sessionAct .reset ⟨State.reset, true⟩ = .next ⟨State.reset, false⟩ ∧
    sessionAct .step ⟨State.reset, true⟩ = .next ⟨State.reset.endRun (.halted .endOfRom), false⟩ :=
  ⟨rfl, rfl, rfl⟩

/-- The last PC from which three bytes fit. -/
theorem test_witness_PlacedWordIsTheNextInstruction :
    (0xFFFD : Word).toNat ≤ 65533 ∧
    decodeTableWord 24 0xFFFFAD = some (.lda (.mem (.abs 0xFFFF))) := by decide

/-- A pointer at 0xFF: its high byte is at 0x0100, or at 0x0000 under ZP_PTR_WRAP (T48, T49). -/
theorem test_witness_EffectiveAddressOfEveryMode :
    (0x00FF : Word).toNat = ((0xFF : Byte).toNat + State.reset.x.toNat) % 256 ∧
    (0x0100 : Word).toNat =
      (if State.reset.params.zpPtrWrap = true then (0xFF + 1) % 256 else 0xFF + 1) ∧
    (0x0000 : Word).toNat =
      (if ({ Params.default with zpPtrWrap := true } : Params).zpPtrWrap = true then (0xFF + 1) % 256
        else 0xFF + 1) := by decide

/-- One mode of each load, and a mode that not all three support. -/
theorem test_witness_LoadsSetTheirRegisterAndZN :
    Mnemonic.lda.supports (ValueOperand.mem (.zpiy 0xFF)).mode = true ∧
    Mnemonic.ldx.supports (ValueOperand.mem (.zpy 0xFF)).mode = true ∧
    Mnemonic.ldy.supports (ValueOperand.mem (.absx 0xFFFF)).mode = true := by decide

theorem test_witness_StoresWriteOneByteAndNoFlag : State.reset.mem.wf = true ∧
    Mnemonic.sta.supports (MemOperand.zpiy 0xFF).mode = true ∧
    Mnemonic.stx.supports (MemOperand.zpy 0xFF).mode = true ∧
    Mnemonic.sty.supports (MemOperand.zpx 0xFF).mode = true := by decide

theorem test_witness_AdcAddsWithCarry : Mnemonic.adc.supports (ValueOperand.imm 0xFF).mode = true := by
  decide

theorem test_witness_SbcSubtractsWithBorrow :
    Mnemonic.sbc.supports (ValueOperand.mem (.absy 0xFFFF)).mode = true := by decide

theorem test_witness_AdcOverflowIsSignedOverflow :
    exec (.adc (.imm 0x80)) { State.reset with a := 0x80 } =
      .next (State.setAlu { State.reset with a := 0x80 } ⟨0x00, true, true⟩) := rfl

/-- T108: V is set. -/
theorem test_witness_SbcOverflowFlagExcludesSignedOverflow :
    exec (.sbc (.imm 0x01)) { State.reset with p := 0x25 } =
      .next (State.setAlu { State.reset with p := 0x25 } ⟨0xFF, false, true⟩) ∧
    (State.setAlu { State.reset with p := 0x25 } ⟨0xFF, false, true⟩).flag .v = true := ⟨rfl, by decide⟩

theorem test_witness_DecimalFlagHasNoEffect :
    (Instr.adc (.imm 0x01)).wellFormed = true ∧ (Instr.sbc (.imm 0x01)).wellFormed = true := by decide

theorem test_witness_ComparesAreSigned :
    Mnemonic.cmp.supports (ValueOperand.mem (.zpxi 0xFF)).mode = true ∧
    Mnemonic.cpx.supports (ValueOperand.imm 0x80).mode = true ∧
    Mnemonic.cpy.supports (ValueOperand.mem (.abs 0xFFFF)).mode = true ∧
    State.reset.params.cmpNPolicy = .unchanged ∧
    ({ Params.default with cmpNPolicy := .diffBit7 } : Params).cmpNPolicy = .diffBit7 := by decide

theorem test_witness_LogicIsBitwise :
    Mnemonic.and.supports (ValueOperand.imm 0xFF).mode = true ∧
    Mnemonic.ora.supports (ValueOperand.mem (.zpx 0xFF)).mode = true ∧
    Mnemonic.eor.supports (ValueOperand.mem (.zpiy 0xFF)).mode = true := by decide

/-- The accumulator and a memory operand. -/
theorem test_witness_ShiftsMoveOneBitThroughCarry : State.reset.mem.wf = true ∧
    Mnemonic.asl.supports ShiftOperand.acc.mode = true ∧
    Mnemonic.lsr.supports ShiftOperand.acc.mode = true ∧
    Mnemonic.rol.supports (ShiftOperand.mem (.absx 0xFFFF)).mode = true ∧
    Mnemonic.ror.supports (ShiftOperand.mem (.zpx 0xFF)).mode = true := by decide

theorem test_witness_IncDecChangeOneByte : State.reset.mem.wf = true ∧
    Mnemonic.inc.supports (MemOperand.zp 0xFF).mode = true ∧
    Mnemonic.dec.supports (MemOperand.absx 0xFFFF).mode = true := by decide

theorem test_witness_PushesWriteAtTheStackPointer : State.reset.mem.wf = true := by decide

/-- S = 0xFF: the byte pulled is at 0x0100; S = 0xFE: at 0x01FF. -/
theorem test_witness_PullsReadAtTheIncrementedStackPointer :
    (0x0100 : Word).toNat = 256 + (State.reset.sp.toNat + 1) % 256 ∧
    (0x01FF : Word).toNat = 256 + ((0xFE : Byte).toNat + 1) % 256 := by decide

/-- S = 0x00: the push wraps S to 0xFF, the pull brings it back (T5). -/
theorem test_witness_PullUndoesPush :
    ∃ s t u v : State, s.mem.wf = true ∧ s.sp = 0x00 ∧ s.a = 0x42 ∧ exec .pha s = .next t ∧
      u.mem = t.mem ∧ u.sp = t.sp ∧ u.a = 0x99 ∧ exec .pla u = .next v :=
  ⟨{ State.reset with a := 0x42, sp := 0x00 }, _,
    State.setA (State.push { State.reset with a := 0x42, sp := 0x00 } 0x42) 0x99, _,
    rfl, rfl, rfl, rfl, rfl, rfl, rfl, rfl⟩

theorem test_witness_PlpUndoesPhp :
    ∃ s t u v : State, s.mem.wf = true ∧ s.params.phpOrMask = 0x00 ∧ u.params.plpKeepMask = 0x00 ∧
      exec .php s = .next t ∧ u.mem = t.mem ∧ u.sp = t.sp ∧ u.p = 0x2D ∧ exec .plp u = .next v :=
  ⟨State.reset, _, State.setP (State.push State.reset 0x24) 0x2D, _,
    rfl, rfl, rfl, rfl, rfl, rfl, rfl, rfl⟩

theorem test_witness_FlagOperationsWriteOneBit :
    (Instr.clc, Flag.c, false) ∈ flagOperations ∧ (Instr.clv, Flag.v, false) ∈ flagOperations := by decide

theorem test_witness_UnassignedOpcodesFollowThePolicy :
    Instr.unassigned02.entry = .unassigned 0x02 ∧ Instr.unassignedFF.entry = .unassigned 0xFF ∧
    State.reset.params.unassignedPolicy = .nop1 ∧
    ({ Params.default with unassignedPolicy := .refuse } : Params).unassignedPolicy = .refuse := by decide

/-- Each value of a tested flag: Z is clear at reset, N set under P = A4. -/
theorem test_witness_BranchesAddTheDisplacementWhenTaken :
    branches[3]? = some (Instr.bne, Flag.z, false) ∧ State.reset.flag .z = false ∧
    branches[4]? = some (Instr.bmi, Flag.n, true) ∧ State.reset.flag .n ≠ true ∧
    (State.setP State.reset 0xA4).flag .n = true :=
  ⟨rfl, by decide, rfl, by decide, by decide⟩

/-- A taken BNE with the most negative displacement, and a BMI that is not taken. -/
theorem test_witness_BranchStepTargetsTheNextInstruction :
    (State.reset.placeAtPc [0xD0, 0x80]).run = .running ∧
    decode ((State.reset.placeAtPc [0xD0, 0x80]).rom.drop (State.reset.placeAtPc [0xD0, 0x80]).pc.toNat) =
      .ok (.bne 0x80, []) ∧
    (State.reset.placeAtPc [0xD0, 0x80]).flag .z = false ∧
    decode ((State.reset.placeAtPc [0x30, 0x7F]).rom.drop (State.reset.placeAtPc [0x30, 0x7F]).pc.toNat) =
      .ok (.bmi 0x7F, []) ∧
    (State.reset.placeAtPc [0x30, 0x7F]).flag .n ≠ true :=
  ⟨rfl, rfl, by decide, rfl, by decide⟩

/-- NOP, and an unassigned opcode under nop1. -/
theorem test_witness_OtherInstructionsAdvanceByTheirLength :
    (State.reset.placeAtPc [0xEA]).run = .running ∧
    decode ((State.reset.placeAtPc [0xEA]).rom.drop (State.reset.placeAtPc [0xEA]).pc.toNat) =
      .ok (.nop, []) ∧
    Instr.nop ≠ .hlt ∧ (∀ mn, Instr.nop.entry ≠ .pair mn .rel) ∧
    (State.reset.placeAtPc [0x02]).params.unassignedPolicy = .nop1 ∧
    decode ((State.reset.placeAtPc [0x02]).rom.drop (State.reset.placeAtPc [0x02]).pc.toNat) =
      .ok (.unassigned02, []) :=
  ⟨rfl, rfl, by decide, (by intro mn h; cases h), rfl, rfl⟩

/-- A line with a two-byte operand, low byte first (R94), with its tokens, and a line that is a comment. -/
theorem test_witness_AssembledLinesDecode :
    lineTokens "LDA $1234,X".toList = some ("LDA".toList, ["$1234".toList, ['X']]) ∧
    Mnemonic.ofToken (String.ofList "LDA".toList) = some .lda ∧
    resolve .lda ["$1234".toList, ['X']] = .ok ⟨.absx, some 0x1234⟩ ∧
    Request.resolve ⟨Mnemonic.lda.token, .absx, some 0x1234⟩ = .ok (.lda (.mem (.absx 0x1234))) ∧
    assembleLine "LDA $1234,X".toList = .ok [0xBD, 0x34, 0x12] ∧ ([0xBD, 0x34, 0x12] : List Byte) ≠ [] ∧
    (" ; nothing".toList.takeWhile (· != ';')).all blank = true ∧ assembleLine " ; nothing".toList = .ok [] :=
  ⟨rfl, rfl, rfl, rfl, rfl, by decide, rfl, rfl⟩

end Sys2Proof.Tests
end

namespace Sys2Proof.Machine

/-! ### What a handler can change

`Effect` lists, by the entry of the opcode map, every change of state a handler makes;
`exec_effect` is the one case analysis over the instructions for it, and the frame facts are read off `Effect`. -/

/-- The changes of state a handler makes for an entry of the opcode map: which registers it writes
(spec/10_state.md R22, R25) and, of the run state, ROM and the parameters, that only HLT and a refused opcode
write the first (R36, R38, R41). The bytes written are left open. -/
inductive Effect (s : State) : OpcodeEntry → State → Prop
  | halts : Effect s .hlt (s.endRun (.halted .hlt))
  | ignores (b : Byte) (policy : s.params.unassignedPolicy = .nop1) : Effect s (.unassigned b) s
  | faults (b : Byte) (policy : s.params.unassignedPolicy = .refuse) :
      Effect s (.unassigned b) (s.endRun (.faulted .unassignedOpcode))
  | writesA {mn : Mnemonic} {m : Mode} (v p : Byte)
      (listed : mn ∈ [.lda, .txa, .tya, .adc, .sbc, .and, .ora, .eor] ∨
        (mn ∈ [.asl, .lsr, .rol, .ror] ∧ m = .acc)) :
      Effect s (.pair mn m) ((s.setA v).setP p)
  | writesX {mn : Mnemonic} {m : Mode} (v p : Byte) (listed : mn ∈ [.ldx, .tax, .tsx, .inx, .dex]) :
      Effect s (.pair mn m) ((s.setX v).setP p)
  | writesY {mn : Mnemonic} {m : Mode} (v p : Byte) (listed : mn ∈ [.ldy, .tay, .iny, .dey]) :
      Effect s (.pair mn m) ((s.setY v).setP p)
  | writesS (v : Byte) : Effect s (.pair .txs .imp) (s.setS v)
  | pushes {mn : Mnemonic} (v : Byte) (listed : mn ∈ [.pha, .php]) : Effect s (.pair mn .stk) (s.push v)
  | pullsA (v p : Byte) : Effect s (.pair .pla .stk) ((s.pull.setA v).setP p)
  | pullsP (p : Byte) : Effect s (.pair .plp .stk) (s.pull.setP p)
  | writesP {mn : Mnemonic} {m : Mode} (p : Byte) : Effect s (.pair mn m) (s.setP p)
  | stores {mn : Mnemonic} {m : Mode} (a : Word) (v p : Byte) :
      Effect s (.pair mn m) ((s.writeByte a v).setP p)
  | branches {mn : Mnemonic} (w : Word)
      (listed : mn ∈ [.bcc, .bcs, .beq, .bne, .bmi, .bpl, .bvc, .bvs]) :
      Effect s (.pair mn .rel) (s.setPc w)

/-- An unassigned opcode does nothing or faults, by the policy (spec/47_flags_nop.md R228). -/
theorem unassignedOp_effect {s t : State} (b : Byte) (h : unassignedOp s = .next t) :
    Effect s (.unassigned b) t := by
  unfold unassignedOp at h
  split at h <;> cases h
  · exact .ignores b ‹_›
  · exact .faults b ‹_›

/-- A shift or rotate writes A in mode ACC and MEMORY in the others (spec/45_logic_shift_incdec.md section 2). -/
theorem shift_effect {s : State} {mn : Mnemonic} (f : Byte → Bool → ShiftOut) (op : ShiftOperand)
    (listed : mn ∈ [.asl, .lsr, .rol, .ror]) : Effect s (.pair mn op.mode) (s.shift f op) := by
  cases op with
  | acc => exact .writesA _ _ (.inr ⟨listed, rfl⟩)
  | mem m => exact .stores _ _ _

/-- A compare writes P alone (spec/42_alu.md R148). -/
theorem setCompare_effect {s : State} {mn : Mnemonic} {m : Mode} (out : CmpOut) :
    Effect s (.pair mn m) (s.setCompare out) := by
  rw [State.setCompare_eq]
  exact .writesP _

/-- A branch writes PC, with the PC it had where it is not taken (spec/48_branches.md R235). -/
theorem branch_effect {s : State} {mn : Mnemonic} (cond : Bool) (d : Byte)
    (listed : mn ∈ [.bcc, .bcs, .beq, .bne, .bmi, .bpl, .bvc, .bvs]) :
    Effect s (.pair mn .rel) (s.branch cond d) := by
  rw [State.branch_eq]
  exact .branches _ listed

/-- Whatever state a handler answers is one of the changes listed for its entry of the opcode map. -/
theorem exec_effect {i : Instr} {s t : State} (h : exec i s = .next t) : Effect s i.entry t := by
  cases i with
  | hlt => cases h; exact .halts
  | lda | adc | sbc | and | ora | eor =>
    obtain ⟨-, rfl⟩ := handled_next.1 h
    exact .writesA _ _ (.inl (by decide))
  | txa | tya => cases h; exact .writesA _ _ (.inl (by decide))
  | ldx =>
    obtain ⟨-, rfl⟩ := handled_next.1 h
    exact .writesX _ _ (by decide)
  | tax | tsx | inx | dex => cases h; exact .writesX _ _ (by decide)
  | ldy =>
    obtain ⟨-, rfl⟩ := handled_next.1 h
    exact .writesY _ _ (by decide)
  | tay | iny | dey => cases h; exact .writesY _ _ (by decide)
  | txs => cases h; exact .writesS _
  | sta | stx | sty | inc | dec =>
    obtain ⟨-, rfl⟩ := handled_next.1 h
    exact .stores _ _ _
  | cmp | cpx | cpy =>
    obtain ⟨-, rfl⟩ := handled_next.1 h
    exact setCompare_effect _
  | asl op | lsr op | rol op | ror op =>
    obtain ⟨-, rfl⟩ := handled_next.1 h
    exact shift_effect _ op (by decide)
  | pha | php => cases h; exact .pushes _ (by decide)
  | pla => cases h; exact .pullsA _ _
  | plp => cases h; exact .pullsP _
  | clc | sec | cli | sei | cld | sed | clv | nop => cases h; exact .writesP _
  | bcc d | bcs d | beq d | bne d | bmi d | bpl d | bvc d | bvs d =>
    cases h
    exact branch_effect _ d (by decide)
  | _ => exact unassignedOp_effect _ h

namespace Effect

variable {s t : State} {e : OpcodeEntry}

/-- A is written by the instructions of its row of spec/10_state.md R22 alone. -/
theorem a_listed (h : Effect s e t) (hne : t.a ≠ s.a) : ∃ mn m, e = .pair mn m ∧
    (mn ∈ [Mnemonic.lda, .txa, .tya, .pla, .adc, .sbc, .and, .ora, .eor] ∨
      (mn ∈ [Mnemonic.asl, .lsr, .rol, .ror] ∧ m = .acc)) := by
  cases h with
  | writesA v p listed =>
    have hsub : [Mnemonic.lda, .txa, .tya, .adc, .sbc, .and, .ora, .eor] ⊆
        [.lda, .txa, .tya, .pla, .adc, .sbc, .and, .ora, .eor] := by decide
    exact ⟨_, _, rfl, listed.imp_left (@hsub _)⟩
  | pullsA v p => exact ⟨_, _, rfl, .inl (by decide)⟩
  | _ => exact absurd rfl hne

/-- X is written by the instructions of its row of spec/10_state.md R22 alone. -/
theorem x_listed (h : Effect s e t) (hne : t.x ≠ s.x) :
    ∃ mn m, e = .pair mn m ∧ mn ∈ [Mnemonic.ldx, .tax, .tsx, .inx, .dex] := by
  cases h with
  | writesX v p listed => exact ⟨_, _, rfl, listed⟩
  | _ => exact absurd rfl hne

/-- Y is written by the instructions of its row of spec/10_state.md R22 alone. -/
theorem y_listed (h : Effect s e t) (hne : t.y ≠ s.y) :
    ∃ mn m, e = .pair mn m ∧ mn ∈ [Mnemonic.ldy, .tay, .iny, .dey] := by
  cases h with
  | writesY v p listed => exact ⟨_, _, rfl, listed⟩
  | _ => exact absurd rfl hne

/-- S is written by TXS and the stack instructions alone (spec/10_state.md R22). -/
theorem sp_listed (h : Effect s e t) (hne : t.sp ≠ s.sp) :
    ∃ mn m, e = .pair mn m ∧ mn ∈ [Mnemonic.txs, .pha, .php, .pla, .plp] := by
  cases h with
  | writesS v => exact ⟨_, _, rfl, by decide⟩
  | pushes v listed =>
    have hsub : [Mnemonic.pha, .php] ⊆ [.txs, .pha, .php, .pla, .plp] := by decide
    exact ⟨_, _, rfl, hsub listed⟩
  | pullsA v p => exact ⟨_, _, rfl, by decide⟩
  | pullsP p => exact ⟨_, _, rfl, by decide⟩
  | _ => exact absurd rfl hne

/-- PC is written by a branch alone, whose mode is REL (spec/10_state.md R25). -/
theorem pc_listed (h : Effect s e t) (hne : t.pc ≠ s.pc) : ∃ mn, e = .pair mn .rel ∧
    mn ∈ [Mnemonic.bcc, .bcs, .beq, .bne, .bmi, .bpl, .bvc, .bvs] := by
  cases h with
  | branches w listed => exact ⟨_, rfl, listed⟩
  | _ => exact absurd rfl hne

/-- The run state is written by HLT and by an unassigned opcode under refuse alone
(spec/10_state.md R36). -/
theorem run_listed (h : Effect s e t) (hne : t.run ≠ s.run) :
    e = .hlt ∨ ((∃ b, e = .unassigned b) ∧ s.params.unassignedPolicy = .refuse) := by
  cases h with
  | halts => exact .inl rfl
  | faults b policy => exact .inr ⟨⟨b, rfl⟩, policy⟩
  | _ => exact absurd rfl hne

/-- No handler writes ROM or a parameter (spec/10_state.md R38, R41). -/
theorem keeps_program (h : Effect s e t) : t.rom = s.rom ∧ t.params = s.params := by
  cases h <;> exact ⟨rfl, rfl⟩

end Effect

/-! ### The step -/

/-- The step of a decoded instruction is its handler and the advance (spec/40_dispatch.md R104, R105). -/
theorem step_of_decode {s t : State} {i : Instr} {rest : List Byte} (hr : s.run = .running)
    (hd : decode s.stream = .ok (i, rest)) (he : exec i s = .next t) :
    step s = .next (t.advance i.length) := by
  rw [step_of_running hr, hd]
  exact advanced_next.2 ⟨t, he, rfl⟩

/-- Both policies answer a next state (spec/47_flags_nop.md R228). -/
theorem unassignedOp_answers (s : State) : ∃ t, unassignedOp s = .next t := by
  cases h : s.params.unassignedPolicy <;> simp [unassignedOp, h]

/-- A well-formed instruction has a handler (spec/30_encoding.md R83, spec/40_dispatch.md R104). -/
theorem exec_answers {i : Instr} (hw : i.wellFormed = true) (s : State) : ∃ t, exec i s = .next t := by
  cases i with
  | lda | ldx | ldy | adc | sbc | cmp | cpx | cpy | and | ora | eor | sta | stx | sty | inc | dec | asl
  | lsr | rol | ror => exact ⟨_, handled_next.2 ⟨hw, rfl⟩⟩
  | hlt | tax | tay | txa | tya | tsx | txs | inx | iny | dex | dey | pha | pla | php | plp | clc | sec
  | cli | sei | cld | sed | clv | nop | bcc | bcs | beq | bne | bmi | bpl | bvc | bvs => exact ⟨_, rfl⟩
  | _ => exact unassignedOp_answers s

/-- What is decoded has a handler: no byte stream decodes to an unsupported pair (spec/30_encoding.md R81). -/
theorem exec_answers_of_decode {bytes rest : List Byte} {i : Instr} (hd : decode bytes = .ok (i, rest))
    (s : State) : ∃ t, exec i s = .next t := by
  obtain ⟨op, o, rfl, -⟩ := decode_ok hd
  exact exec_answers (opcodeShape_wellFormed op o) s

/-- HLT alone stands for the halt entry of the opcode map (spec/30_encoding.md R85). -/
theorem entry_eq_hlt {i : Instr} : i.entry = .hlt ↔ i = .hlt := by
  refine ⟨fun h => ?_, fun h => h ▸ rfl⟩
  cases i with
  | hlt => rfl
  | _ => cases h

/-- The advance of a RUNNING core, in numbers (spec/40_dispatch.md R105). -/
theorem advance_pc_toNat {s : State} (hr : s.run = .running) (n : Nat) :
    (s.advance n).pc.toNat = (s.pc.toNat + n) % 65536 := by
  have h := mask16_toNat (s.pc.toNat + n)
  rw [State.advance_running hr, State.addPc_pc]
  omega

/-! ### ROM and the parameters along steps, runs and host actions -/

theorem step_keeps_program {s t : State} (h : step s = .next t) :
    t.rom = s.rom ∧ t.params = s.params := by
  obtain ⟨-, ⟨-, rfl⟩ | ⟨-, rfl⟩ | ⟨i, rest, u, -, he, rfl⟩⟩ := step_cases h
  · exact ⟨rfl, rfl⟩
  · exact ⟨rfl, rfl⟩
  · rw [State.advance_rom, State.advance_params]
    exact (exec_effect he).keeps_program

/-- A run with fuel that answers a state either stands still or takes a step and goes on
(spec/40_dispatch.md R106). -/
theorem runFor_succ_cases {k : Nat} {s t : State} (h : runFor (k + 1) s = .next t) :
    t = s ∨ ∃ u, step s = .next u ∧ runFor k u = .next t := by
  unfold runFor at h
  split at h
  · split at h
    · exact .inr ⟨_, ‹_›, h⟩
    · cases h
    · cases h
  · cases h; exact .inl rfl
  · cases h; exact .inl rfl

theorem runFor_keeps_program {fuel : Nat} {s t : State} (h : runFor fuel s = .next t) :
    t.rom = s.rom ∧ t.params = s.params := by
  induction fuel generalizing s with
  | zero => cases h; exact ⟨rfl, rfl⟩
  | succ k ih =>
    obtain rfl | ⟨u, hstep, hrest⟩ := runFor_succ_cases h
    · exact ⟨rfl, rfl⟩
    · obtain ⟨hrom, hparams⟩ := step_keeps_program hstep
      obtain ⟨hrom', hparams'⟩ := ih hrest
      exact ⟨hrom'.trans hrom, hparams'.trans hparams⟩

theorem directDispatch_keeps_program {r : Request} {s t : State} (h : directDispatch r s = .next t) :
    t.rom = s.rom ∧ t.params = s.params := by
  unfold directDispatch at h
  split at h
  · cases h
  · exact (exec_effect h).keeps_program

/-- A host's run answers a state only from a RUNNING core (spec/40_dispatch.md R106, R112). -/
theorem hostAct_run_next {fuel : Nat} {s t : State} (h : hostAct (.run fuel) s = .next t) :
    runFor fuel s = .next t := by
  simp only [hostAct] at h
  split at h
  · exact h
  · cases h
  · cases h

/-- The supply of ROM is the one host action that writes ROM, and none writes a parameter
(spec/10_state.md R38, R41; spec/40_dispatch.md R112). -/
theorem hostAct_keeps_program {act : HostAction} {s t : State} (hact : ∀ rom, act ≠ .supplyRom rom)
    (h : hostAct act s = .next t) : t.rom = s.rom ∧ t.params = s.params := by
  cases act with
  | supplyRom rom => exact absurd rfl (hact rom)
  | writeReg r v => cases h; cases r <;> exact ⟨rfl, rfl⟩
  | dispatch r => exact directDispatch_keeps_program h
  | step => exact step_keeps_program h
  | run fuel => exact runFor_keeps_program (hostAct_run_next h)
  | reset | read | writePc | invertFlag | assignFlag | writeMem => cases h; exact ⟨rfl, rfl⟩

/-- What ends a run in progress: a reset, or a step or a run that leaves the core not RUNNING (log entry 7). -/
theorem inRunAfter_eq_false {act : HostAction} {t : State} (h : act.inRunAfter true t = false) :
    act = .reset ∨ ((act = .step ∨ ∃ fuel, act = .run fuel) ∧ t.run ≠ .running) := by
  cases act with
  | reset => exact .inl rfl
  | step => exact .inr ⟨.inl rfl, of_decide_eq_false h⟩
  | run fuel => exact .inr ⟨.inr ⟨fuel, rfl⟩, of_decide_eq_false h⟩
  | supplyRom | read | writeReg | writePc | invertFlag | assignFlag | writeMem | dispatch => cases h

/-! ### Reset -/

/-- MEMORY is zero-initialized by reset (spec/10_state.md R40). -/
@[simp] theorem State.readByte_afterReset (params : Params) (rom : List Byte) (k : Word) :
    (State.afterReset params rom).readByte k = 0x00 := rfl

theorem State.afterReset_wf {rom : List Byte} (params : Params) (h : rom.length ≤ 65536) :
    (State.afterReset params rom).wf = true := by
  have hmem : Memory.wf [] = true := rfl
  simp [State.wf, hmem, h]

end Sys2Proof.Machine

namespace Sys2Proof.Claims

open Sys2Proof.Machine

/-- Settles O20: read off the list of what a handler can change, register by register. -/
theorem registersAreWrittenOnlyAsListed : Obligations.RegistersAreWrittenOnlyAsListed := by
  intro i s t h
  have he := exec_effect h
  refine ⟨he.a_listed, he.x_listed, he.y_listed, he.sp_listed, fun hne => ?_⟩
  obtain ⟨mn, hentry, listed⟩ := he.pc_listed hne
  exact ⟨mn, .rel, hentry, listed⟩

/-- Settles O55: the handler keeps PC and the run state, so the step is the advance alone. -/
theorem otherInstructionsAdvanceByTheirLength : Obligations.OtherInstructionsAdvanceByTheirLength := by
  intro s i rest hr hd hnotHlt hnotBranch hpolicy
  obtain ⟨t, ht⟩ := exec_answers_of_decode hd s
  have he := exec_effect ht
  have hpc : t.pc = s.pc := by
    by_contra hne
    obtain ⟨mn, hentry, -⟩ := he.pc_listed hne
    exact hnotBranch mn hentry
  have hrun : t.run = .running := by
    rw [← hr]
    by_contra hne
    obtain hhlt | ⟨⟨b, hb⟩, hrefuse⟩ := he.run_listed hne
    · exact hnotHlt (entry_eq_hlt.1 hhlt)
    · obtain hnop | hassigned := hpolicy
      · rw [hnop] at hrefuse
        cases hrefuse
      · exact hassigned b hb
  refine ⟨_, step_of_decode hr hd ht, ?_, ?_⟩
  · rw [advance_pc_toNat hrun, hpc]
  · rw [State.advance_run, hrun]

/-- Settles O58: the one action that writes ROM is refused during a run. -/
theorem romStaysDuringARun : Obligations.RomStaysDuringARun := by
  intro act h g hin hg
  obtain ⟨hallowed, t, ht, rfl⟩ := sessionAct_next.1 hg
  have hact : ∀ rom, act ≠ .supplyRom rom := by
    rintro rom rfl
    have hrefused := HostAction.allowed_eq_false.2 ⟨hin, rom, rfl⟩
    rw [hallowed] at hrefused
    cases hrefused
  obtain ⟨hrom, hparams⟩ := hostAct_keeps_program hact ht
  refine ⟨hrom, hparams, fun hended => inRunAfter_eq_false ?_⟩
  rwa [hin] at hended

/-- Settles O18: MEMORY is empty after reset, and ROM is within its bound. -/
theorem resetStateIsWellFormed : Obligations.ResetStateIsWellFormed :=
  ⟨State.afterReset_wf .default (Nat.zero_le _), fun params _ h => State.afterReset_wf params h⟩

/-- Settles O29: the answer is the state after reset with the parameters and ROM in place. -/
theorem resetEstablishesTheInitialState : Obligations.ResetEstablishesTheInitialState := by
  intro s
  exact ⟨.afterReset s.params s.rom, rfl, rfl, rfl, State.readByte_afterReset _ _, rfl, rfl, rfl, rfl, rfl,
    rfl, rfl⟩

/-- Settles O30: each field of the state after reset at the default parameters. -/
theorem modelResetUsesSimulationDefaults : Obligations.ModelResetUsesSimulationDefaults :=
  ⟨rfl, rfl, rfl, rfl, rfl, rfl, rfl, rfl, rfl, State.readByte_afterReset _ _⟩

end Sys2Proof.Claims

namespace Sys2Proof

/-- Bytes that follow an instruction do not change what it decodes to (spec/40_dispatch.md R102). -/
theorem decode_append {bytes rest : List Byte} {i : Instr} (h : decode bytes = .ok (i, rest))
    (more : List Byte) : decode (bytes ++ more) = .ok (i, rest ++ more) := by
  obtain ⟨op, o, rfl, rfl⟩ := decode_ok h
  rw [List.cons_append, List.append_assoc]
  exact decode_operand op o (rest ++ more)

/-- A table word stands for the instruction that its bytes decode to. -/
theorem decodeTableWord_some {nbits w : Nat} {i : Instr} (h : decodeTableWord nbits w = some i) :
    ∃ rest, decode (tableBytes (w % 2 ^ nbits)) = .ok (i, rest) := by
  unfold decodeTableWord at h
  split at h
  · cases h; exact ⟨_, ‹_›⟩
  · cases h

end Sys2Proof

namespace Sys2Proof.Machine

/-! ### The canonical form of MEMORY along a step -/

theorem State.wf_iff {s : State} : s.wf = true ↔ s.mem.wf = true ∧ s.rom.length ≤ 65536 := by
  simp [State.wf]

/-- A handler leaves MEMORY in canonical form: it keeps the list or writes one byte of it. -/
theorem Effect.keeps_mem_wf {s t : State} {e : OpcodeEntry} (h : Effect s e t) (hs : s.mem.wf = true) :
    t.mem.wf = true := by
  cases h with
  | stores a v p => exact Memory.wf_write hs a v
  | pushes v listed => exact Memory.wf_write hs (stackAddress s.sp) v
  | _ => exact hs

theorem step_keeps_mem_wf {s t : State} (h : step s = .next t) (hs : s.mem.wf = true) :
    t.mem.wf = true := by
  obtain ⟨-, ⟨-, rfl⟩ | ⟨-, rfl⟩ | ⟨i, rest, u, -, he, rfl⟩⟩ := step_cases h
  · exact hs
  · exact hs
  · rw [State.advance_mem]
    exact (exec_effect he).keeps_mem_wf hs

theorem step_keeps_wf {s t : State} (hs : s.wf = true) (h : step s = .next t) : t.wf = true := by
  obtain ⟨hmem, hrom⟩ := State.wf_iff.1 hs
  refine State.wf_iff.2 ⟨step_keeps_mem_wf h hmem, ?_⟩
  rwa [(step_keeps_program h).1]

/-! ### Which accesses of an access list write -/

theorem write_notMem_pointerReads (s : State) (m : MemOperand) (k : Word) :
    Access.write k ∉ s.pointerReads m := by
  cases m <;> simp [State.pointerReads]

/-- A read instruction writes no byte of MEMORY (spec/20_memory.md R57). -/
theorem write_notMem_readAccesses (s : State) (op : ValueOperand) (k : Word) :
    Access.write k ∉ s.readAccesses op := by
  cases op with
  | imm o => exact List.not_mem_nil
  | mem m => simp [State.readAccesses, write_notMem_pointerReads]

/-- A store writes the byte at its effective address (spec/20_memory.md R57). -/
theorem write_mem_storeAccesses {s : State} {m : MemOperand} {k : Word} :
    Access.write k ∈ s.storeAccesses m ↔ k = s.ea m := by
  simp [State.storeAccesses, write_notMem_pointerReads]

/-- A read-modify-write instruction writes the byte at its effective address (spec/20_memory.md R57). -/
theorem write_mem_modifyAccesses {s : State} {m : MemOperand} {k : Word} :
    Access.write k ∈ s.modifyAccesses m ↔ k = s.ea m := by
  simp [State.modifyAccesses, write_notMem_pointerReads]

end Sys2Proof.Machine

namespace Sys2Proof.Claims

open Sys2Proof.Machine

/-! ### Two states that differ in MEMORY alone

What an instruction takes from MEMORY (the effective address, the operand's value, the byte pulled, the byte
a shift reads) is the same in both when they agree on the reads of its access list. `SameEffect` then says
what the statement asks of the two answers, and is proved once for the handlers that write no byte and once
for those that write one. -/

/-- The state with another MEMORY. -/
def withMem (s : State) (m : Memory) : State := { s with mem := m }

@[simp] theorem withMem_params (s : State) (m : Memory) : (withMem s m).params = s.params := rfl

section Operands

variable {s : State} {m' : Memory} {acc : List Access}

theorem pointer_withMem {ind : Byte}
    (h : AgreeOnReads (.read (zext8 ind) :: .read (hiAddr s.params.zpPtrWrap ind) :: acc) s (withMem s m')) :
    (withMem s m').pointer ind = s.pointer ind :=
  congrArg₂ wordOf (h _ (List.mem_cons_self ..)) (h _ (List.mem_cons_of_mem _ (List.mem_cons_self ..)))

/-- The effective address depends on the pointer fetches alone, with which every access list of a memory
operand begins (spec/20_memory.md R57, spec/41_addressing.md R137). -/
theorem ea_withMem {m : MemOperand} (h : AgreeOnReads (s.pointerReads m ++ acc) s (withMem s m')) :
    (withMem s m').ea m = s.ea m := by
  cases m with
  | zpxi o => exact pointer_withMem h
  | zpiy o => exact congrArg (wordIndexed · s.y) (pointer_withMem h)
  | zp | zpx | zpy | abs | absx | absy => rfl

/-- The byte at the effective address is the same when its read is next on the access list. -/
theorem readByte_ea_withMem {m : MemOperand}
    (h : AgreeOnReads (s.pointerReads m ++ .read (s.ea m) :: acc) s (withMem s m')) :
    (withMem s m').readByte (s.ea m) = s.readByte (s.ea m) :=
  h _ (List.mem_append_right _ (List.mem_cons_self ..))

theorem val_withMem {op : ValueOperand} (h : AgreeOnReads (s.readAccesses op) s (withMem s m')) :
    (withMem s m').val op = s.val op := by
  cases op with
  | imm o => rfl
  | mem m => simp only [State.val, ea_withMem h, readByte_ea_withMem h]

theorem pulled_withMem (h : AgreeOnReads [.read (stackAddress (inc8 s.sp))] s (withMem s m')) :
    (withMem s m').pulled = s.pulled :=
  h _ (List.mem_cons_self ..)

end Operands

/-- The access list is the same in two states that agree on its reads (spec/20_memory.md R57). -/
theorem accesses_withMem {s : State} {m' : Memory} {i : Instr}
    (h : AgreeOnReads (s.accesses i) s (withMem s m')) : (withMem s m').accesses i = s.accesses i := by
  have pointerReads (m : MemOperand) : (withMem s m').pointerReads m = s.pointerReads m := by
    cases m <;> rfl
  have modify (m : MemOperand) (hm : AgreeOnReads (s.modifyAccesses m) s (withMem s m')) :
      (withMem s m').modifyAccesses m = s.modifyAccesses m := by
    simp only [State.modifyAccesses, pointerReads, ea_withMem hm]
  cases i with
  | lda op | ldx op | ldy op | adc op | sbc op | cmp op | cpx op | cpy op | and op | ora op | eor op =>
    cases op with
    | imm o => rfl
    | mem m => simp only [State.accesses, State.readAccesses, pointerReads, ea_withMem h]
  | sta m | stx m | sty m =>
    simp only [State.accesses, State.storeAccesses, pointerReads, ea_withMem h]
  | asl op | lsr op | rol op | ror op =>
    cases op with
    | acc => rfl
    | mem m => exact modify m h
  | inc m | dec m => exact modify m h
  | _ => rfl

/-- Two answers are next states that differ in MEMORY at most, and not at an address an access list writes. -/
def SameEffect (acc : List Access) (r r' : Result) : Prop :=
  ∃ t m, r = .next t ∧ r' = .next (withMem t m) ∧
    ∀ k : Word, Access.write k ∈ acc → (withMem t m).readByte k = t.readByte k

namespace SameEffect

variable {t t' : State} {m' : Memory} {acc : List Access}

/-- A handler that writes no byte of MEMORY. -/
theorem of_no_write (hacc : ∀ k, Access.write k ∉ acc) :
    SameEffect acc (.next t) (.next (withMem t m')) :=
  ⟨t, m', rfl, rfl, fun k hk => absurd hk (hacc k)⟩

/-- A handler that writes one byte of MEMORY, the same in both states. -/
theorem of_write {m : Memory} {a : Word} {v : Byte} (hm : m.wf = true) (hm' : m'.wf = true)
    (hacc : ∀ k, Access.write k ∈ acc → k = a) (ht : t.mem = m.write a.toNat v) :
    SameEffect acc (.next t) (.next (withMem t (m'.write a.toNat v))) := by
  refine ⟨t, _, rfl, rfl, fun k hk => ?_⟩
  obtain rfl := hacc k hk
  change (m'.write k.toNat v).read k.toNat = t.mem.read k.toNat
  rw [ht, Memory.read_write hm, Memory.read_write hm', if_pos rfl, if_pos rfl]

theorem of_handled {supported : Bool} (hsup : supported = true)
    (h : SameEffect acc (.next t) (.next t')) :
    SameEffect acc (handled supported t) (handled supported t') := by
  subst hsup
  exact h

end SameEffect

section Handlers

variable {s : State} {m' : Memory}

/-- A compare writes P alone, by a policy that is no part of MEMORY (spec/42_alu.md R148). -/
theorem setCompare_withMem (out : CmpOut) :
    (withMem s m').setCompare out = withMem (s.setCompare out) m' := by
  unfold State.setCompare
  rw [withMem_params]
  cases s.params.cmpNPolicy <;> rfl

theorem branch_sameEffect (cond : Bool) (d : Byte) :
    SameEffect [] (.next (s.branch cond d)) (.next ((withMem s m').branch cond d)) := by
  rw [State.branch_eq, State.branch_eq]
  exact .of_no_write fun _ => List.not_mem_nil

theorem unassignedOp_sameEffect : SameEffect [] (unassignedOp s) (unassignedOp (withMem s m')) := by
  unfold unassignedOp
  rw [withMem_params]
  cases s.params.unassignedPolicy <;> exact .of_no_write fun _ => List.not_mem_nil

theorem modify_sameEffect {f : Byte → Byte} {m : MemOperand} (hs : s.mem.wf = true) (hm' : m'.wf = true)
    (h : AgreeOnReads (s.modifyAccesses m) s (withMem s m')) :
    SameEffect (s.modifyAccesses m) (.next (s.modify f m)) (.next ((withMem s m').modify f m)) := by
  unfold State.modify
  rw [ea_withMem h, readByte_ea_withMem h]
  exact .of_write hs hm' (fun _ => write_mem_modifyAccesses.1) rfl

theorem shift_sameEffect {f : Byte → Bool → ShiftOut} {op : ShiftOperand} (hs : s.mem.wf = true)
    (hm' : m'.wf = true) (h : AgreeOnReads (s.shiftAccesses op) s (withMem s m')) :
    SameEffect (s.shiftAccesses op) (.next (s.shift f op)) (.next ((withMem s m').shift f op)) := by
  cases op with
  | acc => exact .of_no_write fun _ => List.not_mem_nil
  | mem m =>
    simp only [State.shift, State.shiftInput, State.shiftOutput]
    rw [ea_withMem h, readByte_ea_withMem h]
    exact .of_write hs hm' (fun _ => write_mem_modifyAccesses.1) rfl

end Handlers

/-- The handler of a well-formed instruction does the same in two states that agree on the reads of its
access list (spec/20_memory.md R57). -/
theorem exec_sameEffect {i : Instr} {s : State} {m' : Memory} (hw : i.wellFormed = true)
    (hs : s.mem.wf = true) (hm' : m'.wf = true) (h : AgreeOnReads (s.accesses i) s (withMem s m')) :
    SameEffect (s.accesses i) (exec i s) (exec i (withMem s m')) := by
  cases i with
  | lda op | ldx op | ldy op | adc op | sbc op | and op | ora op | eor op =>
    refine .of_handled hw ?_
    rw [val_withMem h]
    exact .of_no_write (write_notMem_readAccesses s op)
  | cmp op | cpx op | cpy op =>
    refine .of_handled hw ?_
    rw [val_withMem h, setCompare_withMem]
    exact .of_no_write (write_notMem_readAccesses s op)
  | sta m | stx m | sty m =>
    refine .of_handled hw ?_
    rw [ea_withMem h]
    exact .of_write hs hm' (fun _ => write_mem_storeAccesses.1) rfl
  | inc m | dec m => exact .of_handled hw (modify_sameEffect hs hm' h)
  | asl op | lsr op | rol op | ror op => exact .of_handled hw (shift_sameEffect hs hm' h)
  | pha | php => exact .of_write hs hm' (fun _ hk => Access.write.inj (List.mem_singleton.1 hk)) rfl
  | pla =>
    unfold exec execPla
    rw [pulled_withMem h]
    exact .of_no_write (by simp [State.accesses])
  | plp =>
    unfold exec execPlp State.pulledP
    rw [pulled_withMem h]
    exact .of_no_write (by simp [State.accesses])
  | bcc d | bcs d | beq d | bne d | bmi d | bpl d | bvc d | bvs d => exact branch_sameEffect _ d
  | hlt | tax | tay | txa | tya | tsx | txs | inx | iny | dex | dey | clc | sec | cli | sei | cld | sed
  | clv | nop => exact .of_no_write fun _ => List.not_mem_nil
  | _ => exact unassignedOp_sameEffect

/-! ### The memory family of statements -/

/-- Settles O19: the end of a run and the advance keep them, and no handler writes them. -/
theorem stepNeverChangesRomOrParameters : Obligations.StepNeverChangesRomOrParameters :=
  fun _ _ => step_keeps_program

/-- Settles O16: MEMORY stays canonical because its one writing operation keeps the form; ROM is unchanged. -/
theorem stepKeepsTheStateWellFormed : Obligations.StepKeepsTheStateWellFormed :=
  fun _ _ => step_keeps_wf

/-- Settles O31: the placed bytes are read back at PC, and what follows them is not looked at. -/
theorem placedWordIsTheNextInstruction : Obligations.PlacedWordIsTheNextInstruction := by
  intro s nbits w i hpc hword
  obtain ⟨rest, hdecode⟩ := decodeTableWord_some hword
  have hfits : s.pc.toNat + (tableBytes (w % 2 ^ nbits)).length ≤ 65536 := by
    simp only [tableBytes, List.length_cons, List.length_nil]
    omega
  obtain ⟨more, hplaced⟩ := placeBytes_drop (rom := s.rom) hfits
  refine ⟨rfl, rest ++ more, ?_⟩
  change decode ((placeBytes s.rom s.pc.toNat (tableBytes (w % 2 ^ nbits))).drop s.pc.toNat) = _
  rw [hplaced]
  exact decode_append hdecode more

/-- Settles O23: the access lists are equal, and the two answers differ in MEMORY alone, not where the list
writes. -/
theorem effectDependsOnlyOnListedReads : Obligations.EffectDependsOnlyOnListedReads := by
  intro i s m' hw hs hm' h
  obtain ⟨t, m, ht, ht', hwritten⟩ := exec_sameEffect hw hs hm' h
  exact ⟨t, withMem t m, ht, ht', accesses_withMem h, rfl, rfl, rfl, rfl, rfl, rfl, rfl, hwritten⟩

end Sys2Proof.Claims

namespace Sys2Proof

/-! ### The decoder and the encoder, inverse to each other -/

/-- A well-formed instruction has an encoding, and whatever follows it the decoder stops at its end
(spec/30_encoding.md R76, R79). -/
theorem decode_encode {i : Instr} (hw : i.wellFormed = true) (rest : List Byte) :
    ∃ bytes, encode i = some bytes ∧ decode (bytes ++ rest) = .ok (i, rest) := by
  obtain ⟨op, o, -, rfl⟩ := Instr.built_of_wellFormed hw
  exact ⟨_, encode_opcodeShape op o, decode_operand op o rest⟩

/-- What follows the first byte of a decoded stream: the operand bytes that byte asks for, then the rest
(spec/40_dispatch.md R102). -/
theorem decode_cons_ok {op : Byte} {more rest : List Byte} {i : Instr}
    (h : decode (op :: more) = .ok (i, rest)) :
    ∃ o, i = (opcodeShape op).build o ∧
      more = operandWordBytes (opcodeShape op).operandBytes o ++ rest := by
  obtain ⟨_, o, hi, hbytes⟩ := decode_ok h
  cases hbytes
  exact ⟨o, hi, rfl⟩

/-- The opcode byte and the operand bytes it asks for are enough to decode (spec/40_dispatch.md R103). -/
theorem decode_of_enough {op : Byte} {more : List Byte} (h : (opcodeShape op).operandBytes ≤ more.length) :
    ∃ i rest, decode (op :: more) = .ok (i, rest) := by
  cases hd : decode (op :: more) with
  | ok r => exact ⟨r.1, r.2, rfl⟩
  | error e =>
    obtain ⟨-, hshort⟩ := decode_error.1 hd
    omega

/-- A decoding takes the whole instruction off the stream (spec/30_encoding.md R79). -/
theorem decode_length {op : Byte} {more rest : List Byte} {i : Instr}
    (h : decode (op :: more) = .ok (i, rest)) : more.length = (i.length - 1) + rest.length := by
  obtain ⟨o, rfl, rfl⟩ := decode_cons_ok h
  rw [List.length_append, operandWordBytes_length (Shape.operandBytes_le _), opcodeShape_length,
    Nat.add_sub_cancel_left]

/-! ### The forward map, row by row of spec/30_encoding.md R84 -/

theorem opcodeRow_eq_some {m : Mode} {imm zp zpx zpy abs absx absy zpxi zpiy : Option Byte} {b : Byte} :
    opcodeRow m imm zp zpx zpy abs absx absy zpxi zpiy = some b ↔
      (m = .imm ∧ imm = some b) ∨ (m = .zp ∧ zp = some b) ∨ (m = .zpx ∧ zpx = some b) ∨
      (m = .zpy ∧ zpy = some b) ∨ (m = .abs ∧ abs = some b) ∨ (m = .absx ∧ absx = some b) ∨
      (m = .absy ∧ absy = some b) ∨ (m = .zpxi ∧ zpxi = some b) ∨ (m = .zpiy ∧ zpiy = some b) := by
  cases m <;> simp [opcodeRow]

theorem shiftRow_eq_some {m : Mode} {acc zp zpx abs absx b : Byte} :
    shiftRow m acc zp zpx abs absx = some b ↔
      (m = .acc ∧ acc = b) ∨ (m = .zp ∧ zp = b) ∨ (m = .zpx ∧ zpx = b) ∨ (m = .abs ∧ abs = b) ∨
      (m = .absx ∧ absx = b) := by
  cases m <;> simp [shiftRow]

theorem soleMode_eq_some {m only : Mode} {code b : Byte} :
    soleMode m only code = some b ↔ m = only ∧ code = b := by
  simp [soleMode]

/-- The reverse map undoes the forward map: the table R87 has, at the byte R84 gives a pair, that pair
(spec/30_encoding.md R81). -/
theorem entry_of_opcodeOf {mn : Mnemonic} {m : Mode} {b : Byte} (h : opcodeOf mn m = some b) (o : Word) :
    ((opcodeShape b).build o).entry = .pair mn m := by
  cases mn with
  | ora | and | eor | adc | sta | lda | cmp | sbc | ldx | ldy | stx | sty | cpx | cpy | inc | dec =>
    obtain ⟨rfl, h⟩ | ⟨rfl, h⟩ | ⟨rfl, h⟩ | ⟨rfl, h⟩ | ⟨rfl, h⟩ | ⟨rfl, h⟩ | ⟨rfl, h⟩ | ⟨rfl, h⟩ | ⟨rfl, h⟩ :=
      opcodeRow_eq_some.1 h <;> cases h <;> rfl
  | asl | rol | lsr | ror =>
    obtain ⟨rfl, rfl⟩ | ⟨rfl, rfl⟩ | ⟨rfl, rfl⟩ | ⟨rfl, rfl⟩ | ⟨rfl, rfl⟩ := shiftRow_eq_some.1 h <;> rfl
  | _ =>
    obtain ⟨rfl, rfl⟩ := soleMode_eq_some.1 h
    rfl

/-- Every mode of a row of the support table R83 has an opcode byte in R84. -/
theorem opcodeOf_isSome_of_mem_modes (mn : Mnemonic) : ∀ m ∈ mn.modes, (opcodeOf mn m).isSome = true := by
  cases mn <;> decide

/-- The forward map is defined on exactly the supported pairs (spec/30_encoding.md R81, R83). -/
theorem opcodeOf_isSome (mn : Mnemonic) (m : Mode) : (opcodeOf mn m).isSome = mn.supports m := by
  rw [Bool.eq_iff_iff]
  constructor
  · intro h
    obtain ⟨b, hb⟩ := Option.isSome_iff_exists.1 h
    have hw := opcodeShape_wellFormed b 0
    rwa [Instr.wellFormed, entry_of_opcodeOf hb] at hw
  · intro h
    exact opcodeOf_isSome_of_mem_modes mn m (List.contains_iff_mem.1 h)

/-- The byte of a pair asks for as many operand bytes as the mode tag has (spec/30_encoding.md R79). -/
theorem operandBytes_of_opcodeOf {mn : Mnemonic} {m : Mode} {b : Byte} (h : opcodeOf mn m = some b) :
    (opcodeShape b).operandBytes = m.operandBytes := by
  have hlen := opcodeShape_length b 0
  rw [Instr.length, entry_of_opcodeOf h] at hlen
  exact (Nat.add_left_cancel hlen).symm

/-! ### The bytes of an operand given as a number -/

theorem lowByte_ofNat (v : Nat) : lowByte (BitVec.ofNat 16 v) = BitVec.ofNat 8 v :=
  BitVec.setWidth_ofNat_of_le (by decide) v

theorem highByte_ofNat (v : Nat) : highByte (BitVec.ofNat 16 v) = BitVec.ofNat 8 (v / 256) := by
  apply BitVec.eq_of_toNat_eq
  simp only [highByte, BitVec.toNat_setWidth, BitVec.toNat_ushiftRight, BitVec.toNat_ofNat,
    Nat.shiftRight_eq_div_pow]
  omega

/-! ### The unassigned bytes -/

/-- The instructions of the unassigned entries stand for the listed bytes alone (spec/30_encoding.md R86). -/
theorem mem_unassignedBytes {i : Instr} {b : Byte} (h : i.entry = .unassigned b) :
    b ∈ Claims.unassignedBytes := by
  cases i with
  | hlt | lda | ldx | ldy | sta | stx | sty | tax | tay | txa | tya | tsx | txs | adc | sbc | cmp | cpx
  | cpy | and | ora | eor | asl | lsr | rol | ror | inc | dec | inx | iny | dex | dey | pha | pla | php
  | plp | clc | sec | cli | sei | cld | sed | clv | nop | bcc | bcs | beq | bne | bmi | bpl | bvc | bvs =>
    cases h
  | _ => cases h; decide

/-- The table R87 has at each byte of the list R86 the unassigned opcode of that byte. -/
theorem entry_of_mem_unassignedBytes :
    ∀ b ∈ Claims.unassignedBytes, ((opcodeShape b).build 0).entry = .unassigned b := by
  have hrow : Claims.unassignedBytes.map (fun b => ((opcodeShape b).build 0).entry) =
      Claims.unassignedBytes.map .unassigned := rfl
  exact List.map_inj_left.1 hrow

/-- A listed byte decodes to its unassigned opcode and takes no more of the stream (spec/30_encoding.md R86). -/
theorem decode_unassigned {b : Byte} (h : b ∈ Claims.unassignedBytes) (rest : List Byte) :
    decode (b :: rest) = .ok ((opcodeShape b).build 0, rest) := by
  have hlen := opcodeShape_length b 0
  rw [Instr.length, entry_of_mem_unassignedBytes b h] at hlen
  have hnone : (opcodeShape b).operandBytes = 0 := (Nat.add_left_cancel hlen).symm
  have hd := decode_operand b 0 rest
  rwa [hnone] at hd

end Sys2Proof

namespace Sys2Proof.Machine

/-! ### The direct-dispatch port and the assembler give the same bytes -/

/-- The tokens of the 50 mnemonics are told apart (spec/30_encoding.md R82). -/
@[simp] theorem ofToken_token (mn : Mnemonic) : Mnemonic.ofToken mn.token = some mn := by
  cases mn <;> rfl

/-- The operands the port takes for a mode of n operand bytes (spec/40_dispatch.md R109). -/
theorem checkOperand_ok {n : Nat} {operand : Option Nat} {o : Word} :
    checkOperand n operand = .ok o ↔
      (operand = none ∧ n = 0 ∧ o = 0) ∨
      ∃ v, operand = some v ∧ n ≠ 0 ∧ v < 256 ^ n ∧ o = BitVec.ofNat 16 v := by
  unfold checkOperand
  constructor
  · intro h
    split at h
    · split at h
      · cases h; exact .inl ⟨rfl, ‹n = 0›, rfl⟩
      · cases h
    · rename_i v
      split at h
      · cases h
      · split at h
        · cases h; exact .inr ⟨v, rfl, ‹n ≠ 0›, ‹v < 256 ^ n›, rfl⟩
        · cases h
  · rintro (⟨rfl, rfl, rfl⟩ | ⟨v, rfl, hn, hv, rfl⟩)
    · rfl
    · simp only [if_neg hn, if_pos hv]

/-- The three checks of the port and what it resolves a request to (spec/40_dispatch.md R109). -/
theorem Request.resolve_ok {r : Request} {i : Instr} :
    r.resolve = .ok i ↔ ∃ mn code o, Mnemonic.ofToken r.mnemonic = some mn ∧
      opcodeOf mn r.mode = some code ∧ checkOperand r.mode.operandBytes r.operand = .ok o ∧
      i = (opcodeShape code).build o := by
  unfold Request.resolve
  constructor
  · intro h
    split at h
    · cases h
    · split at h
      · cases h
      · split at h
        · cases h
        · cases h
          exact ⟨_, _, _, ‹_›, ‹_›, ‹_›, rfl⟩
  · rintro ⟨mn, code, o, hmn, hcode, ho, rfl⟩
    simp only [hmn, hcode, ho]

/-- The assembler emits an operand as the bytes the engine reads it from (spec/30_encoding.md R77, R94). -/
theorem operandBytesOf_some (m : Mode) (v : Nat) :
    Assembly.operandBytesOf m (some v) = operandWordBytes m.operandBytes (BitVec.ofNat 16 v) := by
  cases m <;>
    simp [Assembly.operandBytesOf, Mode.operandBytes, operandWordBytes, lowByte_ofNat, highByte_ofNat]

theorem operandBytesOf_of_checkOperand {m : Mode} {operand : Option Nat} {o : Word}
    (h : checkOperand m.operandBytes operand = .ok o) :
    Assembly.operandBytesOf m operand = operandWordBytes m.operandBytes o := by
  obtain ⟨rfl, hn, rfl⟩ | ⟨v, rfl, -, -, rfl⟩ := checkOperand_ok.1 h
  · simp only [Assembly.operandBytesOf, hn, operandWordBytes]
  · exact operandBytesOf_some m v

/-- The port resolves to supported pairs alone (spec/40_dispatch.md R109). -/
theorem Request.wellFormed_of_resolve {r : Request} {i : Instr} (h : r.resolve = .ok i) : i.wellFormed = true := by
  obtain ⟨-, code, o, -, -, -, rfl⟩ := Request.resolve_ok.1 h
  exact opcodeShape_wellFormed code o

/-- The port's instruction is encoded as the opcode byte of the pair and the assembler's operand bytes. -/
theorem Request.encode_of_resolve {mn : Mnemonic} {m : Mode} {operand : Option Nat} {i : Instr}
    (h : Request.resolve ⟨mn.token, m, operand⟩ = .ok i) :
    ∃ code, opcodeOf mn m = some code ∧
      encode i = some (code :: Assembly.operandBytesOf m operand) := by
  obtain ⟨mn', code, o, hmn, hcode, ho, rfl⟩ := Request.resolve_ok.1 h
  obtain rfl : mn = mn' := Option.some.inj ((ofToken_token mn).symm.trans hmn)
  refine ⟨code, hcode, ?_⟩
  rw [encode_opcodeShape, operandBytes_of_opcodeOf hcode, operandBytesOf_of_checkOperand ho]

/-- The port takes what the operand tokens of a line resolve to, for a supported pair
(spec/30_encoding.md R92, R93; spec/40_dispatch.md R109). -/
theorem Request.resolve_of_fits {mn : Mnemonic} {r : Assembly.Resolved} {code : Byte} (hr : r.Fits)
    (hcode : opcodeOf mn r.mode = some code) :
    ∃ i, Request.resolve ⟨mn.token, r.mode, r.operand⟩ = .ok i := by
  have hcheck : ∃ o, checkOperand r.mode.operandBytes r.operand = .ok o := by
    obtain ⟨hnone, hn⟩ | ⟨v, hv, hn, hlt⟩ := hr
    · exact ⟨0, checkOperand_ok.2 (.inl ⟨hnone, hn, rfl⟩)⟩
    · exact ⟨_, checkOperand_ok.2 (.inr ⟨v, hv, Nat.ne_zero_of_lt hn, hlt, rfl⟩)⟩
  obtain ⟨o, ho⟩ := hcheck
  exact ⟨_, Request.resolve_ok.2 ⟨mn, code, o, ofToken_token mn, hcode, ho, rfl⟩⟩

/-- A handler of an unsupported pair answers the refusal (spec/40_dispatch.md R109). -/
theorem handled_unsupported {supported : Bool} (h : supported = false) (t : State) :
    handled supported t = .refused .unsupportedCombination := by
  rw [h]
  rfl

end Sys2Proof.Machine

namespace Sys2Proof.Assembly

open Sys2Proof.Machine

/-- A line without tokens has no bytes (spec/30_encoding.md R90). -/
theorem assembleLine_of_none {line : List Char} (h : lineTokens line = none) : assembleLine line = .ok [] := by
  simp only [assembleLine, h]

/-- The bytes of a line with tokens are those of its tokens (spec/30_encoding.md R90). -/
theorem assembleLine_of_some {line token : List Char} {operands : List (List Char)}
    (h : lineTokens line = some (token, operands)) : assembleLine line = assembleTokens token operands := by
  simp only [assembleLine, h]

/-- A line has no bytes exactly when it has no tokens: an instruction has its opcode byte at least
(spec/30_encoding.md R90, R94). -/
theorem assembleLine_eq_nil {line : List Char} : assembleLine line = .ok [] ↔ lineTokens line = none := by
  refine ⟨fun h => ?_, assembleLine_of_none⟩
  cases ht : lineTokens line with
  | none => rfl
  | some tokens =>
    rw [assembleLine_of_some ht] at h
    obtain ⟨mn, r, code, -, -, -, hbytes⟩ := assembleTokens_ok.1 h
    cases hbytes

/-- The tokens of a line that the port resolves assemble to the encoding of its instruction, which decodes
to it (spec/30_encoding.md R94, spec/40_dispatch.md R109). -/
theorem assembleTokens_of_resolve {token : List Char} {operands : List (List Char)} {mn : Mnemonic}
    {r : Resolved} {i : Instr} (hmn : Mnemonic.ofToken (String.ofList token) = some mn)
    (hr : resolve mn operands = .ok r) (hi : Request.resolve ⟨mn.token, r.mode, r.operand⟩ = .ok i) :
    ∃ bytes, assembleTokens token operands = .ok bytes ∧ encode i = some bytes ∧
      decode bytes = .ok (i, []) := by
  obtain ⟨code, hcode, hencode⟩ := Request.encode_of_resolve hi
  obtain ⟨bytes, hbytes, hdecode⟩ := decode_encode (Request.wellFormed_of_resolve hi) []
  rw [List.append_nil] at hdecode
  obtain rfl : code :: operandBytesOf r.mode r.operand = bytes := Option.some.inj (hencode.symm.trans hbytes)
  exact ⟨_, assembleTokens_ok.2 ⟨mn, r, code, hmn, hr, hcode, rfl⟩, hencode, hdecode⟩

end Sys2Proof.Assembly

namespace Sys2Proof.Claims

open Sys2Proof.Machine

/-! ### The encoding family of statements -/

/-- Settles O1: a well-formed instruction is what its opcode byte builds from its operand. -/
theorem decodeGivesBackEncodedInstruction : Obligations.DecodeGivesBackEncodedInstruction :=
  fun _ rest hw => decode_encode hw rest

/-- Settles O2: the one way to decode is the first byte's instruction with its operand bytes taken off. -/
theorem decodedBytesAreTheEncoding : Obligations.DecodedBytesAreTheEncoding := by
  intro bytes i rest h
  obtain ⟨op, o, rfl, rfl⟩ := decode_ok h
  exact ⟨opcodeShape_wellFormed op o, _, encode_opcodeShape op o, rfl⟩

/-- Settles O3: no opcode byte asks for more than two operand bytes. -/
theorem everyOpcodeByteDecodes : Obligations.EveryOpcodeByteDecodes := by
  intro op b1 b2 rest
  have henough : (opcodeShape op).operandBytes ≤ (b1 :: b2 :: rest).length :=
    (Shape.operandBytes_le _).trans (by simp)
  obtain ⟨i, rest', hd⟩ := decode_of_enough henough
  obtain ⟨o, rfl, -⟩ := decode_cons_ok hd
  exact ⟨_, rest', hd, opcodeShape_opcode op o⟩

/-- Settles O4: entry and length of what an opcode byte builds do not depend on the operand. -/
theorem firstByteDeterminesLength : Obligations.FirstByteDeterminesLength := by
  intro op more more' rest rest' i i' h h'
  have hmore := decode_length h
  have hmore' := decode_length h'
  obtain ⟨o, rfl, -⟩ := decode_cons_ok h
  obtain ⟨o', rfl, -⟩ := decode_cons_ok h'
  have hentry := opcodeShape_entry op o o'
  have hlength := (opcodeShape_length op o).trans (opcodeShape_length op o').symm
  refine ⟨hentry, hlength, hmore, ?_⟩
  rw [hlength]
  exact hmore'

/-- Settles O5: the entry of a decoded instruction has the first byte as its opcode, so that only the byte
0x00 gives HLT and only a listed byte an unassigned opcode. -/
theorem haltAndUnassignedBytesAreOneByteLong : Obligations.HaltAndUnassignedBytesAreOneByteLong := by
  refine ⟨fun _ => rfl, fun b hb rest => ⟨_, decode_unassigned hb rest, entry_of_mem_unassignedBytes b hb⟩, ?_⟩
  intro b i more rest hnotHlt hassigned h
  obtain ⟨o, hi, -⟩ := decode_cons_ok h
  have hopcode : i.entry.opcode = some b := hi ▸ opcodeShape_opcode b o
  have hw : i.wellFormed = true := hi ▸ opcodeShape_wellFormed b o
  cases hentry : i.entry with
  | hlt =>
    rw [hentry] at hopcode
    exact absurd (Option.some.inj hopcode).symm hnotHlt
  | unassigned b' =>
    rw [hentry] at hopcode
    obtain rfl : b' = b := Option.some.inj hopcode
    exact absurd (mem_unassignedBytes hentry) hassigned
  | pair mn m =>
    rw [Instr.wellFormed, hentry] at hw
    exact ⟨mn, m, rfl, hw⟩

/-- Settles O6: the reverse map gives back the pair of a byte. -/
theorem forwardMapIsInjectiveOnSupportedPairs : Obligations.ForwardMapIsInjectiveOnSupportedPairs := by
  refine ⟨opcodeOf_isSome, fun mn m mn' m' b h h' => ?_⟩
  have hpair := (entry_of_opcodeOf h 0).symm.trans (entry_of_opcodeOf h' 0)
  exact OpcodeEntry.pair.inj hpair

/-- Settles O56: assembler and port emit and read the same bytes, and what a line resolves to is an operand
the port takes. -/
theorem assembledLinesDecode : Obligations.AssembledLinesDecode := by
  intro line
  refine ⟨Assembly.assembleLine_eq_nil.trans Assembly.lineTokens_eq_none, ?_, ?_⟩
  · intro token operands mn r i htokens hmn hr hi
    rw [Assembly.assembleLine_of_some htokens]
    exact Assembly.assembleTokens_of_resolve hmn hr hi
  · intro bytes hbytes hne
    cases htokens : Assembly.lineTokens line with
    | none =>
      rw [Assembly.assembleLine_of_none htokens] at hbytes
      cases hbytes
      exact absurd rfl hne
    | some tokens =>
      rw [Assembly.assembleLine_of_some htokens] at hbytes
      obtain ⟨mn, r, code, hmn, hr, hcode, -⟩ := Assembly.assembleTokens_ok.1 hbytes
      obtain ⟨i, hi⟩ := Request.resolve_of_fits (Assembly.resolve_fits hr) hcode
      obtain ⟨bytes', hbytes', -, hdecode⟩ := Assembly.assembleTokens_of_resolve hmn hr hi
      obtain rfl : bytes = bytes' := Except.ok.inj (hbytes.symm.trans hbytes')
      exact ⟨_, _, mn, r, i, rfl, hmn, hr, hi, hdecode⟩

/-- Settles O7: each word is decoded by evaluation. -/
theorem sampleWordsDecode : Obligations.SampleWordsDecode :=
  ⟨rfl, rfl, rfl, rfl, rfl, rfl, rfl, rfl, rfl, rfl, rfl, rfl, rfl, rfl, rfl, rfl⟩

/-- Settles O27: the mnemonics with an operand form have a handler for the supported forms alone; the other
instructions are well formed. -/
theorem unsupportedPairsAreRefused : Obligations.UnsupportedPairsAreRefused := by
  intro i s hw
  cases i with
  | lda | ldx | ldy | sta | stx | sty | adc | sbc | cmp | cpx | cpy | and | ora | eor | asl | lsr | rol | ror
  | inc | dec => exact handled_unsupported hw _
  | _ => cases hw

end Sys2Proof.Claims

namespace Sys2Proof

/-! ### The operand bytes of an instruction -/

theorem lowByte_zext8 (b : Byte) : lowByte (zext8 b) = b := by
  simp [lowByte, zext8]

/-- Two operands with the same operand bytes build the same instruction (spec/30_encoding.md R77). -/
theorem build_eq_of_operandWordBytes {op : Byte} {o o' : Word}
    (h : operandWordBytes (opcodeShape op).operandBytes o = operandWordBytes (opcodeShape op).operandBytes o') :
    (opcodeShape op).build o = (opcodeShape op).build o' := by
  have hd := decode_operand op o []
  rw [h, decode_operand op o' []] at hd
  exact (Prod.mk.inj (Except.ok.inj hd)).1.symm

/-- An instruction has as many operand bytes as its mode tag (spec/30_encoding.md R79). -/
theorem Instr.operandBytes_length {i : Instr} {mn : Mnemonic} {m : Mode} (hentry : i.entry = .pair mn m) :
    i.operandBytes.length = m.operandBytes := by
  have hlen := i.length_eq
  rw [Instr.length, hentry] at hlen
  exact (Nat.add_left_cancel hlen).symm

end Sys2Proof

namespace Sys2Proof.Machine

/-! ### What stands at PC, by what it decodes to -/

/-- Nothing is decoded exactly when PC is at or past the end of ROM (spec/40_dispatch.md R101). -/
theorem decode_stream_endOfStream {s : State} :
    decode s.stream = .error .endOfStream ↔ s.rom.length ≤ s.pc.toNat := by
  rw [← State.stream_eq_nil]
  cases s.stream with
  | nil => exact iff_of_true rfl rfl
  | cons op more => exact iff_of_false (fun h => nomatch (decode_error.1 h).1) (List.cons_ne_nil op more)

/-- An instruction is truncated exactly when the byte at PC asks for operand bytes at or past the end of ROM
(spec/40_dispatch.md R103). -/
theorem decode_stream_truncated {s : State} :
    decode s.stream = .error .truncated ↔
      ∃ op, s.rom[s.pc.toNat]? = some op ∧
        s.rom.length ≤ s.pc.toNat + (opcodeShape op).operandBytes := by
  have operandBytes_missing {op : Byte} (hop : s.rom[s.pc.toNat]? = some op) :
      (s.rom.drop (s.pc.toNat + 1)).length < (opcodeShape op).operandBytes ↔
        s.rom.length ≤ s.pc.toNat + (opcodeShape op).operandBytes := by
    obtain ⟨hpc, -⟩ := List.getElem?_eq_some_iff.1 hop
    rw [List.length_drop]
    omega
  constructor
  · intro h
    cases hop : s.rom[s.pc.toNat]? with
    | none =>
      rw [decode_stream_endOfStream.2 (List.getElem?_eq_none_iff.1 hop)] at h
      cases h
    | some op =>
      rw [State.stream_cons.1 hop] at h
      exact ⟨op, rfl, (operandBytes_missing hop).1 (decode_error.1 h).2⟩
  · rintro ⟨op, hop, hlen⟩
    rw [State.stream_cons.1 hop]
    exact decode_error.2 ⟨rfl, (operandBytes_missing hop).2 hlen⟩

/-- The byte at PC is the opcode of the instruction decoded there (spec/40_dispatch.md R100). -/
theorem rom_pc_of_decode {s : State} {i : Instr} {rest : List Byte} (hd : decode s.stream = .ok (i, rest)) :
    s.rom[s.pc.toNat]? = i.entry.opcode := by
  obtain ⟨op, o, rfl, hstream⟩ := decode_ok hd
  have hhead := congrArg (·[0]?) hstream
  rw [opcodeShape_opcode]
  simpa [State.stream] using hhead

/-! ### The step, case by case -/

/-- The end of the stream halts the run (spec/40_dispatch.md R101). -/
theorem step_of_endOfStream {s : State} (hr : s.run = .running)
    (hd : decode s.stream = .error .endOfStream) : step s = .next (s.endRun (.halted .endOfRom)) := by
  rw [step_of_running hr, hd]

/-- A truncated instruction faults the run (spec/40_dispatch.md R103). -/
theorem step_of_truncated {s : State} (hr : s.run = .running) (hd : decode s.stream = .error .truncated) :
    step s = .next (s.endRun (.faulted .truncatedInstruction)) := by
  rw [step_of_running hr, hd]

/-- An ended run has no step (spec/40_dispatch.md R106). -/
theorem step_of_ended {s : State} (hr : s.run ≠ .running) : step s = .fault .runEnded := by
  unfold step romStep
  split
  · exact absurd ‹_› hr
  · rfl
  · rfl

/-- A RUNNING core has a step, whatever ROM holds (spec/60_exceptions.md R250, spec/30_encoding.md R81). -/
theorem step_answers {s : State} (hr : s.run = .running) : ∃ t, step s = .next t := by
  cases hd : decode s.stream with
  | error e =>
    cases e with
    | endOfStream => exact ⟨_, step_of_endOfStream hr hd⟩
    | truncated => exact ⟨_, step_of_truncated hr hd⟩
  | ok decoded =>
    obtain ⟨t, ht⟩ := exec_answers_of_decode hd s
    exact ⟨_, step_of_decode hr hd ht⟩

/-- A handler that ends the run is HLT's or, under refuse, an unassigned opcode's, and it writes the run state
alone (spec/10_state.md R36, spec/60_exceptions.md R254). -/
theorem Effect.ends_run {s t : State} {e : OpcodeEntry} (h : Effect s e t) (hne : t.run ≠ s.run) :
    (e = .hlt ∧ t = s.endRun (.halted .hlt)) ∨
    ∃ b, e = .unassigned b ∧ s.params.unassignedPolicy = .refuse ∧
      t = s.endRun (.faulted .unassignedOpcode) := by
  cases h with
  | halts => exact .inl ⟨rfl, rfl⟩
  | faults b policy => exact .inr ⟨b, rfl, policy, rfl⟩
  | _ => exact absurd rfl hne

/-- The handler of a mnemonic leaves the run state (spec/10_state.md R36). -/
theorem Effect.keeps_run {s t : State} {mn : Mnemonic} {m : Mode} (h : Effect s (.pair mn m) t) :
    t.run = s.run := by
  cases h <;> rfl

/-! ### The run -/

/-- A run takes one step of a RUNNING core and goes on from there (spec/40_dispatch.md R106). -/
theorem runFor_succ_of_step {s t : State} (h : step s = .next t) (k : Nat) :
    runFor (k + 1) s = runFor k t := by
  obtain ⟨hr, -⟩ := step_cases h
  have hromStep : romStep s = .next t := h
  simp only [runFor, hr, hromStep]

/-- A run of a core that is not RUNNING stands still (spec/40_dispatch.md R106). -/
theorem runFor_of_ended {s : State} (hr : s.run ≠ .running) (k : Nat) : runFor k s = .next s := by
  cases k with
  | zero => rfl
  | succ k =>
    unfold runFor
    split
    · exact absurd ‹_› hr
    · rfl
    · rfl

/-- A run can be cut in two (spec/40_dispatch.md R106). -/
theorem runFor_add {j : Nat} {s t : State} (h : runFor j s = .next t) (k : Nat) :
    runFor (j + k) s = runFor k t := by
  induction j generalizing s with
  | zero =>
    cases h
    rw [Nat.zero_add]
  | succ j ih =>
    by_cases hr : s.run = .running
    · obtain ⟨u, hu⟩ := step_answers hr
      rw [runFor_succ_of_step hu] at h
      rw [Nat.add_right_comm, runFor_succ_of_step hu, ih h]
    · rw [runFor_of_ended hr] at h
      cases h
      rw [runFor_of_ended hr, runFor_of_ended hr]

/-- What every step keeps a run keeps. -/
theorem runFor_keeps {P : State → Prop} (hstep : ∀ s t, P s → step s = .next t → P t) {fuel : Nat}
    {s t : State} (hs : P s) (h : runFor fuel s = .next t) : P t := by
  induction fuel generalizing s with
  | zero => cases h; exact hs
  | succ k ih =>
    obtain rfl | ⟨u, hu, hrest⟩ := runFor_succ_cases h
    · exact hs
    · exact ih (hstep s u hs hu) hrest

/-! ### The supply of ROM -/

/-- ROM of at most 65536 bytes is taken (spec/40_dispatch.md R112, spec/20_memory.md R52). -/
theorem hostAct_supplyRom_fits {rom : List Byte} (h : rom.length ≤ 65536) (s : State) :
    hostAct (.supplyRom rom) s = .next (s.setRom rom) :=
  if_pos h

/-- A longer ROM is refused (spec/20_memory.md R52). -/
theorem hostAct_supplyRom_tooLong {rom : List Byte} (h : 65536 < rom.length) (s : State) :
    hostAct (.supplyRom rom) s = .refused .romTooLong :=
  if_neg (Nat.not_le.2 h)

/-- An action that is not allowed is refused (spec/40_dispatch.md R112). -/
theorem sessionAct_of_not_allowed {act : HostAction} {h : HostSession} (ha : act.allowed h.inRun = false) :
    sessionAct act h = .refused .runInProgress := by
  simp only [sessionAct, ha, Bool.false_eq_true, if_false]

/-- What refuses an allowed action is its own reason (spec/40_dispatch.md R112). -/
theorem sessionAct_of_refused {act : HostAction} {h : HostSession} {e : Refusal}
    (ha : act.allowed h.inRun = true) (he : hostAct act h.state = .refused e) :
    sessionAct act h = .refused e := by
  simp only [sessionAct, ha, if_true, he]

/-! ### The state invariant along host actions -/

/-- Writing one byte keeps the invariant (spec/20_memory.md R51). -/
theorem State.wf_writeByte {s : State} (hs : s.wf = true) (a : Word) (v : Byte) :
    (s.writeByte a v).wf = true := by
  obtain ⟨hmem, hrom⟩ := State.wf_iff.1 hs
  exact State.wf_iff.2 ⟨Memory.wf_write hmem a v, hrom⟩

/-- Supplying a ROM within its bound keeps the invariant (spec/20_memory.md R52). -/
theorem State.wf_setRom {s : State} (hs : s.wf = true) {rom : List Byte} (h : rom.length ≤ 65536) :
    (s.setRom rom).wf = true := by
  obtain ⟨hmem, -⟩ := State.wf_iff.1 hs
  exact State.wf_iff.2 ⟨hmem, h⟩

/-- No register is part of the invariant: its range is in its type (spec/10_state.md R26). -/
@[simp] theorem State.wf_setReg (s : State) (r : Reg) (v : Byte) : (s.setReg r v).wf = s.wf := by
  cases r <;> rfl

/-- The port answers a next state exactly where the request is valid and its handler does
(spec/40_dispatch.md R108, R110). -/
theorem directDispatch_next {r : Request} {s t : State} :
    directDispatch r s = .next t ↔ ∃ i, r.resolve = .ok i ∧ exec i s = .next t := by
  cases h : r.resolve <;> simp [directDispatch, h]

/-- A direct dispatch keeps the invariant, as the handler does (spec/40_dispatch.md R108). -/
theorem directDispatch_keeps_wf {r : Request} {s t : State} (hs : s.wf = true)
    (h : directDispatch r s = .next t) : t.wf = true := by
  obtain ⟨hmem, hrom⟩ := State.wf_iff.1 hs
  obtain ⟨i, -, he⟩ := directDispatch_next.1 h
  rw [State.wf_iff, (directDispatch_keeps_program h).1]
  exact ⟨(exec_effect he).keeps_mem_wf hmem, hrom⟩

/-- Every host action keeps the invariant (spec/40_dispatch.md R112). -/
theorem hostAct_keeps_wf {act : HostAction} {s t : State} (hs : s.wf = true)
    (h : hostAct act s = .next t) : t.wf = true := by
  cases act with
  | supplyRom rom =>
    by_cases hfits : rom.length ≤ 65536
    · rw [hostAct_supplyRom_fits hfits] at h
      cases h
      exact State.wf_setRom hs hfits
    · rw [hostAct_supplyRom_tooLong (Nat.not_le.1 hfits)] at h
      cases h
  | reset => cases h; exact State.afterReset_wf s.params (State.wf_iff.1 hs).2
  | writeReg r v => cases h; rwa [State.wf_setReg]
  | writeMem a v => cases h; exact State.wf_writeByte hs a _
  | read | writePc | invertFlag | assignFlag => cases h; exact hs
  | dispatch r => exact directDispatch_keeps_wf hs h
  | step => exact step_keeps_wf hs h
  | run fuel => exact runFor_keeps (fun _ _ => step_keeps_wf) hs (hostAct_run_next h)

/-! ### The written byte of an access list -/

theorem filter_isWrite_pointerReads (s : State) (m : MemOperand) :
    (s.pointerReads m).filter Access.isWrite = [] := by
  cases m <;> rfl

/-- An access list has at most one write (spec/20_memory.md R57). -/
theorem accesses_writes_le_one (s : State) (i : Instr) :
    ((s.accesses i).filter Access.isWrite).length ≤ 1 := by
  have after_pointerReads (m : MemOperand) (acc : List Access) :
      (s.pointerReads m ++ acc).filter Access.isWrite = acc.filter Access.isWrite := by
    rw [List.filter_append, filter_isWrite_pointerReads, List.nil_append]
  have modify (m : MemOperand) : ((s.modifyAccesses m).filter Access.isWrite).length ≤ 1 := by
    rw [State.modifyAccesses, after_pointerReads]
    exact Nat.le_refl 1
  cases i with
  | lda op | ldx op | ldy op | adc op | sbc op | cmp op | cpx op | cpy op | and op | ora op | eor op =>
    cases op with
    | imm o => exact Nat.zero_le 1
    | mem m =>
      rw [State.accesses, State.readAccesses, after_pointerReads]
      exact Nat.zero_le 1
  | sta m | stx m | sty m =>
    rw [State.accesses, State.storeAccesses, after_pointerReads]
    exact Nat.le_refl 1
  | inc m | dec m => exact modify m
  | asl op | lsr op | rol op | ror op =>
    cases op with
    | acc => exact Nat.zero_le 1
    | mem m => exact modify m
  | pha | php => exact Nat.le_refl 1
  | _ => exact Nat.zero_le 1

/-- MEMORY is as it was, or one byte of it is written, at an address that an access list names as written. -/
def WritesAsListed (s : State) (acc : List Access) (t : State) : Prop :=
  t.mem = s.mem ∨ ∃ (a : Word) (v : Byte), Access.write a ∈ acc ∧ t.mem = s.mem.write a.toNat v

/-- Every byte the list does not name reads as before (spec/20_memory.md R57). -/
theorem WritesAsListed.readByte_unlisted {s t : State} {acc : List Access} (h : WritesAsListed s acc t)
    (hs : s.mem.wf = true) {k : Word} (hk : Access.write k ∉ acc) : t.readByte k = s.readByte k := by
  unfold State.readByte
  obtain hmem | ⟨a, v, ha, hmem⟩ := h
  · rw [hmem]
  · have hne : a.toNat ≠ k.toNat := fun e => hk (BitVec.eq_of_toNat_eq e ▸ ha)
    rw [hmem, Memory.read_write hs, if_neg hne]

/-- A shift or rotate writes MEMORY in the memory modes alone, at its effective address
(spec/45_logic_shift_incdec.md section 2). -/
theorem shift_writesAsListed (s : State) (f : Byte → Bool → ShiftOut) (op : ShiftOperand) :
    WritesAsListed s (s.shiftAccesses op) (s.shift f op) := by
  cases op with
  | acc => exact .inl rfl
  | mem m => exact .inr ⟨_, _, write_mem_modifyAccesses.2 rfl, rfl⟩

theorem unassignedOp_mem {s t : State} (h : unassignedOp s = .next t) : t.mem = s.mem := by
  unfold unassignedOp at h
  split at h <;> cases h <;> rfl

theorem State.setCompare_mem (s : State) (out : CmpOut) : (s.setCompare out).mem = s.mem := by
  rw [State.setCompare_eq, State.setP_mem]

theorem State.branch_mem (s : State) (cond : Bool) (d : Byte) : (s.branch cond d).mem = s.mem := by
  rw [State.branch_eq, State.setPc_mem]

/-- A handler writes MEMORY as its access list says (spec/20_memory.md R57). -/
theorem exec_writesAsListed {i : Instr} {s t : State} (h : exec i s = .next t) :
    WritesAsListed s (s.accesses i) t := by
  cases i with
  | lda | ldx | ldy | adc | sbc | and | ora | eor =>
    obtain ⟨-, rfl⟩ := handled_next.1 h
    exact .inl rfl
  | cmp | cpx | cpy =>
    obtain ⟨-, rfl⟩ := handled_next.1 h
    exact .inl (State.setCompare_mem s _)
  | sta | stx | sty =>
    obtain ⟨-, rfl⟩ := handled_next.1 h
    exact .inr ⟨_, _, write_mem_storeAccesses.2 rfl, rfl⟩
  | inc | dec =>
    obtain ⟨-, rfl⟩ := handled_next.1 h
    exact .inr ⟨_, _, write_mem_modifyAccesses.2 rfl, rfl⟩
  | asl op | lsr op | rol op | ror op =>
    obtain ⟨-, rfl⟩ := handled_next.1 h
    exact shift_writesAsListed s _ op
  | pha | php => cases h; exact .inr ⟨_, _, List.mem_singleton.2 rfl, rfl⟩
  | bcc d | bcs d | beq d | bne d | bmi d | bpl d | bvc d | bvs d =>
    cases h
    exact .inl (State.branch_mem s _ d)
  | hlt | tax | tay | txa | tya | tsx | txs | inx | iny | dex | dey | pla | plp | clc | sec | cli | sei
  | cld | sed | clv | nop => cases h; exact .inl rfl
  | _ => exact .inl (unassignedOp_mem h)

/-! ### The direct-dispatch port -/

/-- A valid request is dispatched to its handler (spec/40_dispatch.md R108). -/
theorem directDispatch_of_resolve {r : Request} {i : Instr} (h : r.resolve = .ok i) (s : State) :
    directDispatch r s = exec i s := by
  simp only [directDispatch, h]

/-- The port resolves to instructions of a mnemonic alone: not to HLT, not to an unassigned opcode
(spec/40_dispatch.md R109). -/
theorem Request.entry_of_resolve {r : Request} {i : Instr} (h : r.resolve = .ok i) :
    ∃ mn m, i.entry = .pair mn m := by
  obtain ⟨mn, code, o, -, hcode, -, rfl⟩ := Request.resolve_ok.1 h
  exact ⟨mn, r.mode, entry_of_opcodeOf hcode o⟩

/-- A valid request has a next state, which is the handler's, with the run state and ROM as they were
(spec/40_dispatch.md R108). -/
theorem directDispatch_answers {r : Request} {i : Instr} (h : r.resolve = .ok i) (s : State) :
    ∃ t, exec i s = .next t ∧ directDispatch r s = .next t ∧ t.run = s.run ∧ t.rom = s.rom := by
  obtain ⟨t, ht⟩ := exec_answers (Request.wellFormed_of_resolve h) s
  obtain ⟨mn, m, hentry⟩ := Request.entry_of_resolve h
  have heffect := exec_effect ht
  have hrom := heffect.keeps_program.1
  rw [hentry] at heffect
  exact ⟨t, ht, (directDispatch_of_resolve h s).trans ht, heffect.keeps_run, hrom⟩

/-! ### The handler reads neither the run state nor ROM -/

section OtherRunAndRom

variable (s : State) (run : RunState) (rom : List Byte)

theorem setCompare_setRun_setRom (out : CmpOut) :
    ((s.setRun run).setRom rom).setCompare out = ((s.setCompare out).setRun run).setRom rom := by
  simp only [State.setCompare, State.setRom_params, State.setRun_params]
  cases s.params.cmpNPolicy <;> rfl

theorem branch_setRun_setRom (cond : Bool) (d : Byte) :
    ((s.setRun run).setRom rom).branch cond d = ((s.branch cond d).setRun run).setRom rom := by
  cases cond <;> rfl

theorem shift_setRun_setRom (f : Byte → Bool → ShiftOut) (op : ShiftOperand) :
    ((s.setRun run).setRom rom).shift f op = ((s.shift f op).setRun run).setRom rom := by
  cases op with
  | acc => rfl
  | mem m => rfl

end OtherRunAndRom

/-- The handler of a mnemonic does the same with another run state and another ROM
(spec/40_dispatch.md R104, R108). -/
theorem exec_setRun_setRom {i : Instr} {mn : Mnemonic} {m : Mode} (hentry : i.entry = .pair mn m)
    {s t : State} (h : exec i s = .next t) (run : RunState) (rom : List Byte) :
    exec i ((s.setRun run).setRom rom) = .next ((t.setRun run).setRom rom) := by
  cases i with
  | lda | ldx | ldy | adc | sbc | and | ora | eor | sta | stx | sty | inc | dec =>
    obtain ⟨hsup, rfl⟩ := handled_next.1 h
    exact handled_next.2 ⟨hsup, rfl⟩
  | cmp | cpx | cpy =>
    obtain ⟨hsup, rfl⟩ := handled_next.1 h
    exact handled_next.2 ⟨hsup, setCompare_setRun_setRom s run rom _⟩
  | asl op | lsr op | rol op | ror op =>
    obtain ⟨hsup, rfl⟩ := handled_next.1 h
    exact handled_next.2 ⟨hsup, shift_setRun_setRom s run rom _ op⟩
  | bcc d | bcs d | beq d | bne d | bmi d | bpl d | bvc d | bvs d =>
    cases h
    exact congrArg Host.Outcome.next (branch_setRun_setRom s run rom _ d)
  | tax | tay | txa | tya | tsx | txs | inx | iny | dex | dey | pha | pla | php | plp | clc | sec
  | cli | sei | cld | sed | clv | nop => cases h; rfl
  | _ => cases hentry

/-! ### What the port answers -/

/-- The port resolves a supported pair and an operand it takes to the instruction of that pair with the
operand's bytes (spec/40_dispatch.md R108, R109). -/
theorem Request.resolve_of_operandBytes {i : Instr} {mn : Mnemonic} {m : Mode} {operand : Option Nat} {o : Word}
    (hentry : i.entry = .pair mn m) (hsup : mn.supports m = true)
    (ho : checkOperand i.operandBytes.length operand = .ok o)
    (hbytes : operandWordBytes i.operandBytes.length o = i.operandBytes) :
    Request.resolve ⟨mn.token, m, operand⟩ = .ok i := by
  have hw : i.wellFormed = true := by rw [Instr.wellFormed, hentry]; exact hsup
  rw [Instr.operandBytes_length hentry] at ho hbytes
  obtain ⟨code, o', hcode, rfl⟩ := Instr.built_of_wellFormed hw
  rw [hentry] at hcode
  refine Request.resolve_ok.2 ⟨mn, code, o, ofToken_token mn, hcode, ho, build_eq_of_operandWordBytes ?_⟩
  rw [← (opcodeShape_sound code o').2.2.1, ← hbytes, operandBytes_of_opcodeOf hcode]

/-- The port takes an operand word that its bytes can hold (spec/40_dispatch.md R109). -/
theorem checkOperand_toNat {n : Nat} {o : Word} (hn : n ≠ 0) (ho : o.toNat < 256 ^ n) :
    checkOperand n (some o.toNat) = .ok o :=
  checkOperand_ok.2 (.inr ⟨_, rfl, hn, ho, by simp⟩)

/-- An operand is missing where the mode has operand bytes (spec/40_dispatch.md R109). -/
theorem checkOperand_missing {n : Nat} (hn : 1 ≤ n) : checkOperand n none = .error .operandMissing :=
  if_neg (Nat.ne_of_gt hn)

/-- An operand is surplus where the mode has no operand byte (spec/40_dispatch.md R109). -/
theorem checkOperand_surplus (v : Nat) : checkOperand 0 (some v) = .error .operandSurplus := rfl

/-- An operand of n bytes is below 256 to the n (spec/40_dispatch.md R109). -/
theorem checkOperand_outOfRange {n v : Nat} (hn : n ≠ 0) (hv : 256 ^ n ≤ v) :
    checkOperand n (some v) = .error .operandOutOfRange := by
  simp only [checkOperand, if_neg hn, if_neg (Nat.not_lt.2 hv)]

section Refusals

variable {r : Request} {mn : Mnemonic}

theorem directDispatch_of_unknown (h : Mnemonic.ofToken r.mnemonic = none) (s : State) :
    directDispatch r s = .refused .unknownMnemonic := by
  simp only [directDispatch, Request.resolve, h]

theorem directDispatch_of_unsupported (hmn : Mnemonic.ofToken r.mnemonic = some mn)
    (h : mn.supports r.mode = false) (s : State) :
    directDispatch r s = .refused .unsupportedCombination := by
  have hcode : opcodeOf mn r.mode = none := by
    rw [← Option.not_isSome_iff_eq_none, opcodeOf_isSome, h]
    exact Bool.false_ne_true
  simp only [directDispatch, Request.resolve, hmn, hcode]

theorem directDispatch_of_badOperand (hmn : Mnemonic.ofToken r.mnemonic = some mn)
    (hsup : mn.supports r.mode = true) {e : Refusal}
    (h : checkOperand r.mode.operandBytes r.operand = .error e) (s : State) :
    directDispatch r s = .refused e := by
  rw [← opcodeOf_isSome] at hsup
  obtain ⟨code, hcode⟩ := Option.isSome_iff_exists.1 hsup
  simp only [directDispatch, Request.resolve, hmn, hcode, h]

end Refusals

/-! ### Host writes -/

section HostWrites

variable (s : State) (r q : Reg) (v : Byte)

@[simp] theorem State.getReg_setReg :
    (s.setReg r v).getReg q = if q = r then v else s.getReg q := by
  cases r <;> cases q <;> rfl

@[simp] theorem State.setReg_pc : (s.setReg r v).pc = s.pc := by cases r <;> rfl
@[simp] theorem State.setReg_run : (s.setReg r v).run = s.run := by cases r <;> rfl
@[simp] theorem State.setReg_rom : (s.setReg r v).rom = s.rom := by cases r <;> rfl
@[simp] theorem State.setReg_params : (s.setReg r v).params = s.params := by cases r <;> rfl
@[simp] theorem State.readByte_setReg (k : Word) : (s.setReg r v).readByte k = s.readByte k := by
  cases r <;> rfl

@[simp] theorem State.getReg_setPc (w : Word) : (s.setPc w).getReg q = s.getReg q := by cases q <;> rfl
@[simp] theorem State.getReg_writeByte (a : Word) : (s.writeByte a v).getReg q = s.getReg q := by
  cases q <;> rfl

/-- A flag is a bit of P (spec/10_state.md R26). -/
theorem State.getReg_setFlag {q : Reg} (hq : q ≠ .p) (f : Flag) (b : Bool) :
    (s.setFlag f b).getReg q = s.getReg q := by
  cases q with
  | p => exact absurd rfl hq
  | a | x | y | s => rfl

end HostWrites

end Sys2Proof.Machine

namespace Sys2Proof.Claims

open Sys2Proof.Machine

/-! ### The dispatch family of statements -/

/-- Settles O14: a step ends the run at the end of the stream, on a truncated instruction, or by a handler
that ends it; the opcode of that handler's instruction stands at PC. -/
theorem runEndsOnlyInTheNamedWays : Obligations.RunEndsOnlyInTheNamedWays := by
  intro s t hr h hended
  obtain ⟨-, ⟨hd, rfl⟩ | ⟨hd, rfl⟩ | ⟨i, rest, u, hd, he, rfl⟩⟩ := step_cases h
  · exact ⟨rfl, .inl ⟨rfl, decode_stream_endOfStream.1 hd⟩⟩
  · obtain ⟨op, hop, hlen⟩ := decode_stream_truncated.1 hd
    obtain ⟨hpc, -⟩ := List.getElem?_eq_some_iff.1 hop
    exact ⟨rfl, .inr (.inr (.inr ⟨rfl, op, hop, by omega, hlen⟩))⟩
  · rw [State.advance_run] at hended
    rw [State.advance_ended hended]
    have hop := rom_pc_of_decode hd
    obtain ⟨hentry, rfl⟩ | ⟨b, hentry, hpolicy, rfl⟩ := (exec_effect he).ends_run (hr ▸ hended)
    · rw [hentry] at hop
      exact ⟨rfl, .inr (.inl ⟨rfl, hop⟩)⟩
    · rw [hentry] at hop
      exact ⟨rfl, .inr (.inr (.inl ⟨rfl, hpolicy, b, mem_unassignedBytes hentry, hop⟩))⟩

/-- Settles O17: action by action, a run by the step. -/
theorem hostActionsKeepTheStateWellFormed : Obligations.HostActionsKeepTheStateWellFormed :=
  fun _ _ _ => hostAct_keeps_wf

/-- Settles O22: the one byte a handler may write is on its access list. -/
theorem memoryWritesAreTheListedAccesses : Obligations.MemoryWritesAreTheListedAccesses :=
  fun i s _ hs h =>
    ⟨accesses_writes_le_one s i, fun _ hk => (exec_writesAsListed h).readByte_unlisted hs hk⟩

/-- Settles O24: the step is the advance of the state the port answers. -/
theorem entryPointsAgree : Obligations.EntryPointsAgree := by
  intro r i s rest hi hr hd
  obtain ⟨t, ht, hport, hrun, -⟩ := directDispatch_answers hi s
  have hrunning : t.run = .running := hrun.trans hr
  refine ⟨t, t.advance i.length, hport, step_of_decode hr hd ht, State.advance_a .., State.advance_x ..,
    State.advance_y .., State.advance_sp .., State.advance_p .., State.advance_mem .., ?_, hrun, ?_⟩
  · rw [State.advance_running hrunning, State.addPc_pc]
  · rw [State.advance_run, hrun]

/-- Settles O15: the step taken from a RUNNING core, the standstill of an ended one, and the cut of a run. -/
theorem runIsTheStepRepeated : Obligations.RunIsTheStepRepeated := by
  intro k s
  refine ⟨rfl, fun hr => ?_, fun hr => runFor_of_ended hr k, fun j t h => runFor_add h k⟩
  obtain ⟨t, ht⟩ := step_answers hr
  exact ⟨t, ht, runFor_succ_of_step ht k⟩

/-- Settles O25: by the number of operand bytes, the operand whose bytes they are. -/
theorem everyPairCanBeRequested : Obligations.EveryPairCanBeRequested := by
  intro i mn m hentry hsup
  refine ⟨fun h => ?_, fun b h => ?_, fun lo hi h => ?_⟩
  · refine Request.resolve_of_operandBytes (o := 0) hentry hsup ?_ ?_ <;> rw [h] <;> rfl
  · rw [← zext8_toNat b]
    refine Request.resolve_of_operandBytes (o := zext8 b) hentry hsup ?_ ?_ <;> rw [h]
    · exact checkOperand_toNat (n := 1) (by decide) (zext8_toNat b ▸ b.isLt)
    · exact congrArg ([·]) (lowByte_zext8 b)
  · rw [← wordOf_toNat lo hi]
    refine Request.resolve_of_operandBytes (o := wordOf lo hi) hentry hsup ?_ ?_ <;> rw [h]
    · exact checkOperand_toNat (n := 2) (by decide) (wordOf lo hi).isLt
    · exact congrArg₂ ([·, ·]) (lowByte_wordOf lo hi) (highByte_wordOf lo hi)

/-- Settles O26: check by check, in the port's order. -/
theorem portRefusesBadRequests : Obligations.PortRefusesBadRequests := by
  intro r s
  refine ⟨fun h => directDispatch_of_unknown h s, fun mn hmn =>
    ⟨fun h => directDispatch_of_unsupported hmn h s, fun hsup => ?_⟩⟩
  have badOperand {e : Refusal} (h : checkOperand r.mode.operandBytes r.operand = .error e) :
      directDispatch r s = .refused e := directDispatch_of_badOperand hmn hsup h s
  refine ⟨fun hn hoperand => badOperand ?_, fun v hoperand hn => badOperand ?_,
    fun v hoperand hn hv => badOperand ?_, fun v hoperand hn hv => badOperand ?_⟩
  · rw [hoperand, checkOperand_missing hn]
  · rw [hoperand, hn, checkOperand_surplus]
  · rw [hoperand, hn, checkOperand_outOfRange (by decide) hv]
  · rw [hoperand, hn, checkOperand_outOfRange (by decide) hv]

/-- A flag write changes one bit of P and nothing else (spec/40_dispatch.md R112). -/
theorem setFlag_only (s : State) (f : Flag) (b : Bool) :
    (s.setFlag f b).flag f = b ∧ FlagsKeptBut [f] s (s.setFlag f b) ∧
      (∀ q, q ≠ .p → (s.setFlag f b).getReg q = s.getReg q) ∧ (s.setFlag f b).pc = s.pc ∧
      MemKept s (s.setFlag f b) ∧ ControlKept s (s.setFlag f b) := by
  refine ⟨?_, fun g hg => ?_, fun q hq => State.getReg_setFlag s hq f b, rfl, fun _ => rfl, rfl, rfl, rfl⟩
  · rw [State.flag_setFlag, if_pos rfl]
  · rw [State.flag_setFlag, if_neg fun hfg => hg (List.mem_singleton.2 hfg.symm)]

/-- Settles O28: each write is of one field, and what it leaves is read off that field's laws. -/
theorem hostWritesAreMasked : Obligations.HostWritesAreMasked := by
  intro s v hs
  refine ⟨fun r => ⟨s.setReg r (mask8 v), rfl, ?_⟩, ⟨s.setPc (mask16 v), rfl, ?_⟩,
    fun a => ⟨s.writeByte a (mask8 v), rfl, ?_⟩, fun f => ⟨_, rfl, setFlag_only s f _⟩,
    fun f b => ⟨_, rfl, setFlag_only s f b⟩⟩
  · refine ⟨?_, fun q hq => ?_, State.setReg_pc .., fun k => State.readByte_setReg ..,
      State.setReg_run .., State.setReg_rom .., State.setReg_params ..⟩
    · rw [State.getReg_setReg, if_pos rfl, mask8_toNat]
    · rw [State.getReg_setReg, if_neg hq]
  · exact ⟨mask16_toNat v, fun q => State.getReg_setPc .., fun _ => rfl, rfl, rfl, rfl⟩
  · refine ⟨?_, fun k hk => ?_, fun q => State.getReg_writeByte .., rfl, rfl, rfl, rfl⟩
    · rw [State.readByte_writeByte hs, if_pos rfl, mask8_toNat]
    · rw [State.readByte_writeByte hs, if_neg hk.symm]

/-- Settles O59: the handler of a mnemonic answers, and neither reads nor writes the run state or ROM. -/
theorem portRunsTheHandlerAlone : Obligations.PortRunsTheHandlerAlone := by
  intro r i s hi
  obtain ⟨t, ht, hport, hrun, hrom⟩ := directDispatch_answers hi s
  obtain ⟨mn, m, hentry⟩ := Request.entry_of_resolve hi
  refine ⟨t, ht, hport, hrun, hrom, fun run rom => ?_⟩
  rw [directDispatch_of_resolve hi]
  exact exec_setRun_setRom hentry ht run rom

/-- Settles O8: the handler's state, advanced while the core is RUNNING. -/
theorem stepRunsTheDecodedInstruction : Obligations.StepRunsTheDecodedInstruction := by
  intro s i rest hr hd
  obtain ⟨t, ht⟩ := exec_answers_of_decode hd s
  have hstep := step_of_decode hr hd ht
  refine ⟨t, ht, fun hrun => ?_, fun hended => ?_⟩
  · rw [hstep, State.advance_running hrun]
    rfl
  · rw [hstep, State.advance_ended hended]

/-- Settles O9: there is nothing to decode. -/
theorem stepAtEndOfStreamHalts : Obligations.StepAtEndOfStreamHalts :=
  fun _ hr hlen => step_of_endOfStream hr (decode_stream_endOfStream.2 hlen)

/-- Settles O10: the decoding stops for want of operand bytes. -/
theorem stepOnTruncatedInstructionFaults : Obligations.StepOnTruncatedInstructionFaults :=
  fun _ op hr hop _ hlen => step_of_truncated hr (decode_stream_truncated.2 ⟨op, hop, hlen⟩)

/-- Settles O11: the byte decodes to HLT, after which there is no advance. -/
theorem stepOnHaltByteHalts : Obligations.StepOnHaltByteHalts := by
  intro s hr hop
  have hd : decode s.stream = .ok (.hlt, s.rom.drop (s.pc.toNat + 1)) := by
    rw [State.stream_cons.1 hop]
    rfl
  exact step_of_decode hr hd rfl

/-- Settles O12: the engine has no step then. -/
theorem noStepAfterTheRunEnded : Obligations.NoStepAfterTheRunEnded :=
  fun _ => step_of_ended

/-- Settles O57: the supply is allowed before a run alone, and takes what fits in 65536 bytes. -/
theorem supplyingRomFixesOnlyTheStream : Obligations.SupplyingRomFixesOnlyTheStream := by
  intro h rom
  have allowed (hbefore : h.inRun = false) : (HostAction.supplyRom rom).allowed h.inRun = true :=
    congrArg not hbefore
  refine ⟨fun hbefore hfits =>
      sessionAct_next.2 ⟨allowed hbefore, _, hostAct_supplyRom_fits hfits h.state, ?_⟩,
    fun hbefore hlong => sessionAct_of_refused (allowed hbefore) (hostAct_supplyRom_tooLong hlong h.state),
    fun hduring => sessionAct_of_not_allowed (HostAction.allowed_eq_false.2 ⟨hduring, rom, rfl⟩)⟩
  exact congrArg (HostSession.mk _) hbefore.symm

end Sys2Proof.Claims

namespace Sys2Proof.Machine

/-! ### Addresses in numbers -/

theorem zpIndexed_toNat (o index : Byte) : (zpIndexed o index).toNat = (o.toNat + index.toNat) % 256 := by
  exact_mod_cast mask8_toNat (o.toNat + index.toNat)

theorem wordIndexed_toNat (w : Word) (index : Byte) :
    (wordIndexed w index).toNat = (w.toNat + index.toNat) % 65536 := by
  exact_mod_cast mask16_toNat (w.toNat + index.toNat)

/-- The high byte of a pointer stands one past `ind`; only under the wrap does 0xFF lead back to 0x0000, and
without it no address exceeds 0x0100 (spec/41_addressing.md R136). -/
theorem hiAddr_toNat (wrap : Bool) (ind : Byte) :
    (hiAddr wrap ind).toNat = if wrap = true then (ind.toNat + 1) % 256 else ind.toNat + 1 := by
  cases wrap with
  | true =>
    have h := mask8_toNat (ind.toNat + 1)
    simp only [hiAddr, if_true, zext8_toNat]
    omega
  | false =>
    have h := mask16_toNat (ind.toNat + 1)
    have hind := ind.isLt
    simp only [hiAddr, Bool.false_eq_true, if_false]
    omega

/-- The pointer at `b` is the little-endian word of the bytes at the two addresses that R136 gives in
numbers (spec/41_addressing.md R132, R133, R136). -/
theorem State.pointer_toNat (s : State) {b : Byte} {lo hi : Word} (hlo : lo.toNat = b.toNat)
    (hhi : hi.toNat = if s.params.zpPtrWrap = true then (lo.toNat + 1) % 256 else lo.toNat + 1) :
    (s.pointer b).toNat = (s.readByte lo).toNat + 256 * (s.readByte hi).toNat := by
  have elo : lo = zext8 b := BitVec.eq_of_toNat_eq (hlo.trans (zext8_toNat b).symm)
  have ehi : hi = hiAddr s.params.zpPtrWrap b :=
    BitVec.eq_of_toNat_eq (by rw [hhi, hlo, hiAddr_toNat])
  rw [State.pointer, wordOf_toNat, ← elo, ← ehi]

end Sys2Proof.Machine

namespace Sys2Proof.Claims

open Sys2Proof.Machine

/-! ### The addressing family of statements -/

/-- Settles O32: each address is an extended, an indexed or a pointed-to word, and each of these has its
value in numbers. -/
theorem effectiveAddressOfEveryMode : Obligations.EffectiveAddressOfEveryMode := by
  intro s
  refine ⟨zext8_toNat, fun o => ?zpx, fun o => ?zpy, fun _ => rfl, (wordIndexed_toNat · s.x),
    (wordIndexed_toNat · s.y), ?zpxi, ?zpiy, fun _ => rfl, fun _ => rfl⟩
  case zpx => exact (zext8_toNat _).trans (zpIndexed_toNat o s.x)
  case zpy => exact (zext8_toNat _).trans (zpIndexed_toNat o s.y)
  case zpxi =>
    rintro o ind _ hi hind rfl hhi
    exact s.pointer_toNat (hind.trans (zpIndexed_toNat o s.x).symm) hhi
  case zpiy =>
    rintro o ind _ hi hind rfl hhi
    rw [State.ea, wordIndexed_toNat, s.pointer_toNat hind hhi]

end Sys2Proof.Claims

namespace Sys2Proof.Machine

/-! ### Overflow in numbers -/

/-- The heuristic fires where the inputs have one sign and the masked result the other
(spec/42_alu.md R146). -/
theorem ovf_iff (a m r : Byte) : ovf a m r = true ↔
    (a.toNat < 128 ↔ m.toNat < 128) ∧ ¬ (r.toNat < 128 ↔ a.toNat < 128) := by
  simp only [ovf, sgn, bit7_eq, Bool.and_eq_true, beq_iff_eq, bne_iff_ne, ne_eq, decide_eq_decide,
    ← not_lt, not_iff_not]

/-- Of an addition the heuristic says exactly whether the signed sum leaves the range of a byte
(spec/42_alu.md R146). -/
theorem add8_overflow_iff (a m : Byte) (c : Bool) : (add8 a m c).overflow = true ↔
    a.toInt + m.toInt + c.toNat < -128 ∨ 127 < a.toInt + m.toInt + c.toNat := by
  have hr := add8_result a m c
  have hc := c.toNat_lt
  change ovf a m (add8 a m c).result = true ↔ _
  rw [ovf_iff, BitVec.toInt_eq_toNat_cond, BitVec.toInt_eq_toNat_cond]
  omega

/-- Of a subtraction the heuristic fires only for inputs of one sign, whose difference stays in the range of a
byte (spec/42_alu.md R146). -/
theorem sub8_overflow_inRange {a m : Byte} {c : Bool} (h : (sub8 a m c).overflow = true) :
    (a.toNat < 128 ↔ m.toNat < 128) ∧
    -128 ≤ a.toInt - m.toInt - (1 - c.toNat) ∧ a.toInt - m.toInt - (1 - c.toNat) ≤ 127 := by
  have hr := sub8_result a m c
  have hc := c.toNat_lt
  change ovf a m (sub8 a m c).result = true at h
  rw [ovf_iff] at h
  rw [BitVec.toInt_eq_toNat_cond, BitVec.toInt_eq_toNat_cond]
  omega

/-! ### What ADC and SBC leave unchanged -/

section SetAlu

variable (s : State) (out : AluOut)

@[simp] theorem State.setAlu_a : (s.setAlu out).a = out.result := rfl
@[simp] theorem State.setAlu_x : (s.setAlu out).x = s.x := rfl
@[simp] theorem State.setAlu_y : (s.setAlu out).y = s.y := rfl
@[simp] theorem State.setAlu_sp : (s.setAlu out).sp = s.sp := rfl
@[simp] theorem State.setAlu_pc : (s.setAlu out).pc = s.pc := rfl
@[simp] theorem State.setAlu_mem : (s.setAlu out).mem = s.mem := rfl
@[simp] theorem State.setAlu_run : (s.setAlu out).run = s.run := rfl

end SetAlu

/-! ### What depends on no flag, and what writes none -/

/-- The value of an operand does not depend on a flag (spec/41_addressing.md R137). -/
@[simp] theorem State.val_setFlag (s : State) (f : Flag) (b : Bool) (op : ValueOperand) :
    (s.setFlag f b).val op = s.val op := rfl

/-- An unassigned opcode writes no flag under either policy (spec/47_flags_nop.md R228). -/
theorem unassignedOp_flag {s t : State} (h : unassignedOp s = .next t) (f : Flag) : t.flag f = s.flag f := by
  unfold unassignedOp at h
  split at h <;> cases h <;> rfl

end Sys2Proof.Machine

namespace Sys2Proof.Claims

open Sys2Proof.Machine

theorem carryIn_eq (s : State) : carryIn s = (s.flag .c).toNat := by
  unfold carryIn
  cases s.flag .c <;> rfl

/-! ### The flags a shared operation leaves -/

section FlagsKept

variable (s : State)

theorem flagsKeptBut_setFlag (f : Flag) (b : Bool) : FlagsKeptBut [f] s (s.setFlag f b) := by
  obtain ⟨-, hkept, -⟩ := setFlag_only s f b
  exact hkept

theorem flagsKeptBut_setZN (r : Byte) : FlagsKeptBut [.z, .n] s (s.setZN r) := by
  intro f hf
  simp only [List.mem_cons, List.not_mem_nil, or_false, not_or] at hf
  simp only [State.flag_setZN, hf, if_false]

theorem flagsKeptBut_setAlu (out : AluOut) : FlagsKeptBut [.c, .z, .v, .n] s (s.setAlu out) := by
  intro f hf
  simp only [List.mem_cons, List.not_mem_nil, or_false, not_or] at hf
  simp only [State.flag_setAlu, hf, if_false]

theorem flagsKeptBut_shift (f : Byte → Bool → ShiftOut) (op : ShiftOperand) :
    FlagsKeptBut [.c, .z, .n] s (s.shift f op) := by
  intro g hg
  simp only [List.mem_cons, List.not_mem_nil, or_false, not_or] at hg
  simp only [State.flag_shift, hg, if_false]

end FlagsKept

/-! ### The flag matrix -/

section FlagMatrix

variable {s t : State} {f : Flag} {mn : Mnemonic} {m : Mode}

/-- A change of a flag is in the matrix where the flags an operation writes all list its mnemonic
(spec/42_alu.md R142). -/
theorem mayWriteFlag_of_flagsKeptBut {policy : CmpNPolicy} {written : List Flag}
    (hkept : FlagsKeptBut written s t) (hlisted : ∀ g ∈ written, mn ∈ flagWriters g)
    (hne : t.flag f ≠ s.flag f) :
    ∃ mn' m', OpcodeEntry.pair mn m = .pair mn' m' ∧ mayWriteFlag policy f mn' :=
  ⟨mn, m, rfl, .inl (hlisted f (Decidable.not_not.1 (mt (hkept f) hne)))⟩

/-- A compare writes C and Z, and N under diff_bit7 alone (spec/42_alu.md R148). -/
theorem mayWriteFlag_of_setCompare {out : CmpOut} (hmn : mn ∈ [Mnemonic.cmp, .cpx, .cpy])
    (hne : (s.setCompare out).flag f ≠ s.flag f) : mayWriteFlag s.params.cmpNPolicy f mn := by
  have hsub : [Mnemonic.cmp, .cpx, .cpy] ⊆ flagWriters .c := by decide
  rw [State.flag_setCompare] at hne
  split_ifs at hne with hc hz hn
  · exact .inl (hc ▸ hsub hmn)
  · exact .inr ⟨hmn, .inl hz⟩
  · exact .inr ⟨hmn, .inr hn⟩
  · exact absurd rfl hne

theorem plp_mem_flagWriters (f : Flag) : Mnemonic.plp ∈ flagWriters f := by
  cases f <;> decide

end FlagMatrix

/-! ### ADC and SBC under another D -/

/-- ADC and SBC write the same ALU output whatever D holds: they read A, C and the operand's value
(spec/42_alu.md R147). -/
theorem exec_setFlag_d {i : Instr} {op : ValueOperand} (hi : i = .adc op ∨ i = .sbc op)
    (hw : i.wellFormed = true) (s : State) :
    ∃ out, ∀ b, exec i (s.setFlag .d b) = .next ((s.setFlag .d b).setAlu out) := by
  have hc (b : Bool) : (s.setFlag .d b).flag .c = s.flag .c := State.flag_setFlag s .d .c b
  obtain rfl | rfl := hi
  · refine ⟨add8 s.a (s.val op) (s.flag .c), fun b => handled_next.2 ⟨hw, ?_⟩⟩
    rw [hc, State.val_setFlag, State.setFlag_a]
  · refine ⟨sub8 s.a (s.val op) (s.flag .c), fun b => handled_next.2 ⟨hw, ?_⟩⟩
    rw [hc, State.val_setFlag, State.setFlag_a]

/-! ### The ALU family of statements -/

/-- Settles O21: each handler changes the flags of its shared operation, and the matrix lists it for all of
them; the compares go by the policy, and PLP is in every column. -/
theorem flagsAreWrittenOnlyAsTheMatrixSays : Obligations.FlagsAreWrittenOnlyAsTheMatrixSays := by
  intro i s t f h hne
  cases i with
  | lda | ldx | ldy | and | ora | eor | inc | dec =>
    obtain ⟨-, rfl⟩ := handled_next.1 h
    exact mayWriteFlag_of_flagsKeptBut (flagsKeptBut_setZN _ _) (by decide) hne
  | tax | tay | txa | tya | tsx | inx | iny | dex | dey | pla =>
    cases h
    exact mayWriteFlag_of_flagsKeptBut (flagsKeptBut_setZN _ _) (by decide) hne
  | adc | sbc =>
    obtain ⟨-, rfl⟩ := handled_next.1 h
    exact mayWriteFlag_of_flagsKeptBut (flagsKeptBut_setAlu s _) (by decide) hne
  | asl op | lsr op | rol op | ror op =>
    obtain ⟨-, rfl⟩ := handled_next.1 h
    exact mayWriteFlag_of_flagsKeptBut (flagsKeptBut_shift s _ op) (by decide) hne
  | cmp | cpx | cpy =>
    obtain ⟨-, rfl⟩ := handled_next.1 h
    exact ⟨_, _, rfl, mayWriteFlag_of_setCompare (by decide) hne⟩
  | clc | sec | cli | sei | cld | sed | clv =>
    cases h
    exact mayWriteFlag_of_flagsKeptBut (flagsKeptBut_setFlag s _ _) (by decide) hne
  | plp => exact ⟨_, _, rfl, .inl (plp_mem_flagWriters f)⟩
  | sta | stx | sty =>
    obtain ⟨-, rfl⟩ := handled_next.1 h
    exact absurd rfl hne
  | bcc | bcs | beq | bne | bmi | bpl | bvc | bvs =>
    cases h
    rw [State.branch_eq] at hne
    exact absurd rfl hne
  | hlt | txs | pha | php | nop => cases h; exact absurd rfl hne
  | _ => exact absurd (unassignedOp_flag h f) hne

/-- Settles O38: V is the heuristic of ADD8, which is exact for an addition. -/
theorem adcOverflowIsSignedOverflow : Obligations.AdcOverflowIsSignedOverflow := by
  intro op s t h
  obtain ⟨-, rfl⟩ := handled_next.1 h
  rw [carryIn_eq]
  exact (Bool.eq_iff_iff.1 (State.flag_setAlu s _ .v)).trans (add8_overflow_iff _ _ _)

/-- Settles O39: V is the heuristic of SUB8, which asks for inputs of one sign. -/
theorem sbcOverflowFlagExcludesSignedOverflow : Obligations.SbcOverflowFlagExcludesSignedOverflow := by
  intro op s t h hv
  obtain ⟨-, rfl⟩ := handled_next.1 h
  rw [carryIn_eq]
  exact sub8_overflow_inRange ((State.flag_setAlu s _ .v).symm.trans hv)

/-- Settles O40: both runs write one ALU output, which leaves D as it was. -/
theorem decimalFlagHasNoEffect : Obligations.DecimalFlagHasNoEffect := by
  intro op s i hi hw
  obtain ⟨out, hexec⟩ := exec_setFlag_d hi hw s
  have hd (b : Bool) : ((s.setFlag .d b).setAlu out).flag .d = b := by
    rw [flagsKeptBut_setAlu _ out .d (by decide), State.flag_setFlag, if_pos rfl]
  have hothers (f : Flag) (hf : f ≠ .d) :
      ((s.setFlag .d true).setAlu out).flag f = ((s.setFlag .d false).setAlu out).flag f := by
    simp only [State.flag_setAlu, State.flag_setFlag, if_neg hf.symm]
  refine ⟨_, _, hexec true, hexec false, ?_, ?_, ?_, ?_, ?_, ?_, ?_, hd true, hd false, hothers⟩ <;> simp

end Sys2Proof.Claims

namespace Sys2Proof.Claims

open Sys2Proof.Machine

/-! ### The opcode bytes of a rule -/

/-- Rows that are in the forward map are all of a mnemonic's once every mode of the support table has one: the
forward map is defined on no other mode, and gives a mode one byte (spec/30_encoding.md R81, R83). -/
theorem hasOpcodes_of_modes_subset {mn : Mnemonic} {rows : List (Mode × Byte)}
    (hrows : ∀ row ∈ rows, opcodeOf mn row.1 = some row.2) (hmodes : mn.modes ⊆ rows.map Prod.fst) :
    HasOpcodes mn rows := by
  refine ⟨fun m b hmem => hrows (m, b) hmem, fun m b hb => ?_⟩
  have hsupported : mn.supports m = true := by rw [← opcodeOf_isSome, hb, Option.isSome_some]
  obtain ⟨⟨_, c⟩, hmem, rfl⟩ := List.mem_map.1 (hmodes (List.contains_iff_mem.1 hsupported))
  obtain rfl : b = c := Option.some.inj (hb.symm.trans (hrows _ hmem))
  exact hmem

/-! ### One register or one byte written -/

/-- SetZN(r) says of r whether it is zero and whether its bit 7 is set (spec/42_alu.md R141). -/
theorem znSay_setZN (s : State) (r : Byte) : ZNSay r (s.setZN r) := by
  refine ⟨?z, ?n⟩
  case z => rw [State.flag_setZN, if_neg (by decide), if_pos rfl, beq_iff_eq, BitVec.toNat_eq]; rfl
  case n => rw [State.flag_setZN, if_pos rfl, bit7_eq, decide_eq_true_iff]

section Answers

variable {i : Instr} {r : Byte} {s : State}

theorem setsA_of_exec (h : exec i s = .next ((s.setA r).setZN r)) : SetsA i r s :=
  ⟨_, h, rfl, znSay_setZN _ r, flagsKeptBut_setZN (s.setA r) r, rfl, rfl, rfl, rfl, fun _ => rfl,
    rfl, rfl, rfl⟩

theorem setsX_of_exec (h : exec i s = .next ((s.setX r).setZN r)) : SetsX i r s :=
  ⟨_, h, rfl, znSay_setZN _ r, flagsKeptBut_setZN (s.setX r) r, rfl, rfl, rfl, rfl, fun _ => rfl,
    rfl, rfl, rfl⟩

theorem setsY_of_exec (h : exec i s = .next ((s.setY r).setZN r)) : SetsY i r s :=
  ⟨_, h, rfl, znSay_setZN _ r, flagsKeptBut_setZN (s.setY r) r, rfl, rfl, rfl, rfl, fun _ => rfl,
    rfl, rfl, rfl⟩

theorem stores_of_exec {a : Word} (hmem : s.mem.wf = true) (h : exec i s = .next (s.writeByte a r)) :
    Stores i a r s := by
  refine ⟨_, h, ?written, fun k hk => ?kept, rfl, rfl, rfl, rfl, rfl, rfl, rfl, rfl, rfl⟩
  case written => rw [State.readByte_writeByte hmem, if_pos rfl]
  case kept => rw [State.readByte_writeByte hmem, if_neg hk.symm]

end Answers

/-! ### The family of loads, stores and transfers -/

/-- Settles O33: a load of a supported operand answers its register set to the operand's value and SetZN of it. -/
theorem loadsSetTheirRegisterAndZN : Obligations.LoadsSetTheirRegisterAndZN := by
  refine ⟨?lda, ?ldx, ?ldy, fun op s => ⟨fun hlda => setsA_of_exec (handled_next.2 ⟨hlda, rfl⟩),
    fun hldx => setsX_of_exec (handled_next.2 ⟨hldx, rfl⟩),
    fun hldy => setsY_of_exec (handled_next.2 ⟨hldy, rfl⟩)⟩⟩
  all_goals exact hasOpcodes_of_modes_subset (by decide) (by decide)

/-- Settles O34: a store to a supported operand answers the write of its register at the effective address. -/
theorem storesWriteOneByteAndNoFlag : Obligations.StoresWriteOneByteAndNoFlag := by
  refine ⟨?sta, ?stx, ?sty, fun m s hmem =>
    ⟨fun hsta => stores_of_exec hmem (handled_next.2 ⟨hsta, rfl⟩),
      fun hstx => stores_of_exec hmem (handled_next.2 ⟨hstx, rfl⟩),
      fun hsty => stores_of_exec hmem (handled_next.2 ⟨hsty, rfl⟩)⟩⟩
  all_goals exact hasOpcodes_of_modes_subset (by decide) (by decide)

/-- Settles O35: a transfer answers its destination set to its source, then SetZN of it but for TXS. -/
theorem transfersCopyTheirRegister : Obligations.TransfersCopyTheirRegister := by
  refine ⟨?tax, ?tay, ?txa, ?tya, ?tsx, ?txs, fun s => ⟨setsX_of_exec rfl, setsY_of_exec rfl,
    setsA_of_exec rfl, setsA_of_exec rfl, setsX_of_exec rfl, ?txsAnswer⟩⟩
  case txsAnswer => exact ⟨s.setS s.x, rfl, rfl, rfl, rfl, rfl, rfl, rfl, fun _ => rfl, rfl, rfl, rfl⟩
  all_goals exact hasOpcodes_of_modes_subset (by decide) (by decide)

end Sys2Proof.Claims

namespace Sys2Proof.Machine

/-! ### ADC, SBC and the compares in numbers -/

/-- ADD8's carry: the 9-bit sum exceeds a byte (spec/42_alu.md R143). -/
theorem add8_carry_iff (a m : Byte) (c : Bool) :
    (add8 a m c).carry = true ↔ 255 < a.toNat + m.toNat + c.toNat := by
  simp only [add8, decide_eq_true_iff]
  omega

/-- SUB8's carry: there is no borrow (spec/42_alu.md R144). -/
theorem sub8_carry_iff (a m : Byte) (c : Bool) :
    (sub8 a m c).carry = true ↔ 0 ≤ (a.toNat : Int) - m.toNat - (1 - c.toNat) :=
  decide_eq_true_iff

/-- CMP8's carry: the order of the signed bytes (spec/42_alu.md R148). -/
theorem cmp8_carry_iff (reg m : Byte) : (cmp8 reg m).carry = true ↔ m.toInt ≤ reg.toInt := by
  rw [← signed8_eq_toInt, ← signed8_eq_toInt]
  exact decide_eq_true_iff

/-- CMP8's n': bit 7 of the masked difference (spec/42_alu.md R148). -/
theorem cmp8_negative_iff (reg m : Byte) :
    (cmp8 reg m).negative = true ↔ 128 ≤ ((reg.toNat : Int) - m.toNat) % 256 := by
  rw [cmp8, bit7_eq, decide_eq_true_iff, ← mask8_toNat]
  exact_mod_cast Iff.rfl

/-! ### The flags ADC, SBC and the compares write -/

section WrittenFlags

variable (s : State)

theorem State.setAlu_flag_c (out : AluOut) : (s.setAlu out).flag .c = out.carry :=
  s.flag_setAlu out .c

theorem State.setAlu_flag_v (out : AluOut) : (s.setAlu out).flag .v = out.overflow :=
  s.flag_setAlu out .v

theorem State.setCompare_flag_c (out : CmpOut) : (s.setCompare out).flag .c = out.carry :=
  s.flag_setCompare out .c

theorem State.setCompare_flag_z (out : CmpOut) : (s.setCompare out).flag .z = out.zero :=
  s.flag_setCompare out .z

/-- A compare writes N under diff_bit7 alone (spec/42_alu.md R148). -/
theorem State.setCompare_flag_n (out : CmpOut) : (s.setCompare out).flag .n =
    if s.params.cmpNPolicy = .diffBit7 then out.negative else s.flag .n := by
  simp [State.flag_setCompare]

end WrittenFlags

end Sys2Proof.Machine

namespace Sys2Proof.Claims

open Sys2Proof.Machine

/-! ### The frames of ADC, SBC and the compares -/

theorem flagsKeptBut_setCompare (s : State) (out : CmpOut) :
    FlagsKeptBut [.c, .z, .n] s (s.setCompare out) := by
  intro f hf
  simp only [List.mem_cons, List.not_mem_nil, or_false, not_or] at hf
  simp only [State.flag_setCompare, hf, false_and, if_false]

/-- ADC and SBC alike: Z and N say A, and nothing but A and four flags changes
(spec/44_arithmetic_compare.md R180, R181). -/
theorem setAlu_frame (s : State) (out : AluOut) :
    ZNSay (s.setAlu out).a (s.setAlu out) ∧ FlagsKeptBut [.c, .z, .v, .n] s (s.setAlu out) ∧
    (s.setAlu out).x = s.x ∧ (s.setAlu out).y = s.y ∧ (s.setAlu out).sp = s.sp ∧
    (s.setAlu out).pc = s.pc ∧ MemKept s (s.setAlu out) ∧ ControlKept s (s.setAlu out) :=
  ⟨znSay_setZN _ out.result, flagsKeptBut_setAlu s out, rfl, rfl, rfl, rfl, fun _ => rfl, rfl, rfl, rfl⟩

/-- What CMP8 says of a register and an operand is a signed comparison (spec/42_alu.md R148). -/
theorem comparesTo_of_exec {i : Instr} {reg m : Byte} {s : State}
    (h : exec i s = .next (s.setCompare (cmp8 reg m))) : ComparesTo i reg m s := by
  refine ⟨_, h, ?c, ?z, fun hunchanged => ?nKept, fun hdiff => ?nWritten,
    flagsKeptBut_setCompare s _, ?frame⟩
  case c => rw [State.setCompare_flag_c, cmp8_carry_iff]
  case z => rw [State.setCompare_flag_z, cmp8_zero, decide_eq_true_iff]
  case nKept => rw [State.setCompare_flag_n, hunchanged, if_neg (by decide)]
  case nWritten => rw [State.setCompare_flag_n, if_pos hdiff, cmp8_negative_iff]
  case frame =>
    rw [State.setCompare_eq]
    exact ⟨rfl, rfl, rfl, rfl, rfl, fun _ => rfl, rfl, rfl, rfl⟩

/-! ### The family of arithmetic and compare -/

/-- Settles O36: the answer writes what ADD8 gives, whose result, carry and overflow are said in numbers. -/
theorem adcAddsWithCarry : Obligations.AdcAddsWithCarry := by
  refine ⟨hasOpcodes_of_modes_subset (by decide) (by decide), fun op s hadc =>
    ⟨_, handled_next.2 ⟨hadc, rfl⟩, ?sum, ?carry, ?overflow, setAlu_frame s _⟩⟩
  case sum => rw [carryIn_eq, State.setAlu_a, add8_result]
  case carry => rw [carryIn_eq, State.setAlu_flag_c, add8_carry_iff]
  case overflow =>
    rw [State.setAlu_flag_v]
    exact ovf_iff _ _ _

/-- Settles O37: the answer writes what SUB8 gives, whose result, carry and overflow are said in numbers. -/
theorem sbcSubtractsWithBorrow : Obligations.SbcSubtractsWithBorrow := by
  refine ⟨hasOpcodes_of_modes_subset (by decide) (by decide), fun op s hsbc =>
    ⟨_, handled_next.2 ⟨hsbc, rfl⟩, ?difference, ?carry, ?overflow, setAlu_frame s _⟩⟩
  case difference => rw [carryIn_eq, State.setAlu_a, sub8_result]
  case carry => rw [carryIn_eq, State.setAlu_flag_c, sub8_carry_iff]
  case overflow =>
    rw [State.setAlu_flag_v]
    exact ovf_iff _ _ _

/-- Settles O41: a compare of a supported operand answers what CMP8 says of its register and the operand. -/
theorem comparesAreSigned : Obligations.ComparesAreSigned := by
  refine ⟨?cmp, ?cpx, ?cpy, fun op s => ⟨fun hcmp => comparesTo_of_exec (handled_next.2 ⟨hcmp, rfl⟩),
    fun hcpx => comparesTo_of_exec (handled_next.2 ⟨hcpx, rfl⟩),
    fun hcpy => comparesTo_of_exec (handled_next.2 ⟨hcpy, rfl⟩)⟩⟩
  all_goals exact hasOpcodes_of_modes_subset (by decide) (by decide)

end Sys2Proof.Claims

namespace Sys2Proof.Machine

/-! ### The shifts and rotates in numbers -/

/-- The carry out of a left shift is the bit from 128 upwards (spec/42_alu.md R149). -/
theorem getLsbD_seven_iff (v : Byte) : v.getLsbD 7 = true ↔ 128 ≤ v.toNat := by
  rw [← bit7, bit7_eq, decide_eq_true_iff]

/-- The carry out of a right shift is the parity (spec/42_alu.md R149). -/
theorem getLsbD_zero_iff (v : Byte) : v.getLsbD 0 = true ↔ v.toNat % 2 = 1 := by
  rw [BitVec.getLsbD, Nat.testBit_zero, decide_eq_true_iff]

theorem asl8_result (v : Byte) (c : Bool) : (asl8 v c).result.toNat = 2 * v.toNat % 256 := by
  rw [asl8, BitVec.toNat_shiftLeft, Nat.shiftLeft_eq, Nat.mul_comm]

theorem lsr8_result (v : Byte) (c : Bool) : (lsr8 v c).result.toNat = v.toNat / 2 := by
  rw [lsr8, BitVec.toNat_ushiftRight, Nat.shiftRight_one]

/-- The old carry enters at bit 0, which the shift left empty (spec/42_alu.md R149). -/
theorem rol8_result (v : Byte) (c : Bool) : (rol8 v c).result.toNat = (2 * v.toNat + c.toNat) % 256 := by
  have hshift : (v <<< 1).toNat = 2 ^ 1 * (v.toNat % 128) := by
    rw [BitVec.toNat_shiftLeft, Nat.shiftLeft_eq]
    omega
  have hcarry : (if c then 0x01 else 0x00 : Byte).toNat = c.toNat := by cases c <;> rfl
  rw [rol8, BitVec.toNat_or, hshift, hcarry, ← Nat.two_pow_add_eq_or_of_lt c.toNat_lt]
  have hbit := c.toNat_lt
  omega

/-- The old carry enters at bit 7, which the shift left empty (spec/42_alu.md R149). -/
theorem ror8_result (v : Byte) (c : Bool) : (ror8 v c).result.toNat = v.toNat / 2 + 128 * c.toNat := by
  have hshift : (v >>> 1).toNat = v.toNat / 2 := lsr8_result v c
  have hcarry : (if c then 0x80 else 0x00 : Byte).toNat = 2 ^ 7 * c.toNat := by cases c <;> rfl
  have hlt : v.toNat / 2 < 2 ^ 7 := by
    have hv := v.isLt
    omega
  rw [ror8, BitVec.toNat_or, hshift, hcarry, Nat.or_comm, ← Nat.two_pow_add_eq_or_of_lt hlt, Nat.add_comm]

theorem State.shift_flag_c (s : State) (f : Byte → Bool → ShiftOut) (op : ShiftOperand) :
    (s.shift f op).flag .c = (f (s.shiftInput op) (s.flag .c)).carry :=
  s.flag_shift f op .c

end Sys2Proof.Machine

namespace Sys2Proof.Claims

open Sys2Proof.Machine

/-! ### One byte of MEMORY read, changed and written back -/

theorem writeByte_only {s : State} (hmem : s.mem.wf = true) (a : Word) (v : Byte) :
    (s.writeByte a v).readByte a = v ∧ MemKeptBut a s (s.writeByte a v) := by
  refine ⟨?written, fun k hk => ?kept⟩
  case written => rw [State.readByte_writeByte hmem, if_pos rfl]
  case kept => rw [State.readByte_writeByte hmem, if_neg hk.symm]

theorem shifted_eq (op : ShiftOperand) (s : State) : shifted op s = (s.shiftInput op).toNat := by
  cases op <;> rfl

section Answers

variable {i : Instr} {s : State} {r : Nat}

/-- What a shift or rotate says of its function's result and carry, for A and for a byte of MEMORY
(spec/45_logic_shift_incdec.md section 2). -/
theorem shiftsTo_of_exec {f : Byte → Bool → ShiftOut} {op : ShiftOperand} {c : Prop}
    (hmem : s.mem.wf = true) (h : exec i s = .next (s.shift f op))
    (hresult : (f (s.shiftInput op) (s.flag .c)).result.toNat = r)
    (hcarry : (f (s.shiftInput op) (s.flag .c)).carry = true ↔ c) : ShiftsTo i op r c s := by
  subst hresult
  have hc : (s.shift f op).flag .c = true ↔ c := by rw [State.shift_flag_c, hcarry]
  have hzn : ZNSay (f (s.shiftInput op) (s.flag .c)).result (s.shift f op) := znSay_setZN _ _
  obtain ⟨hz, hn⟩ := hzn
  refine ⟨_, h, hc, hz, hn, flagsKeptBut_shift s f op, ?_⟩
  cases op with
  | acc => exact ⟨⟨rfl, fun _ => rfl⟩, rfl, rfl, rfl, rfl, rfl, rfl, rfl⟩
  | mem m =>
    obtain ⟨hwritten, hkept⟩ := writeByte_only hmem (s.ea m) (f (s.readByte (s.ea m)) (s.flag .c)).result
    exact ⟨⟨rfl, congrArg BitVec.toNat hwritten, hkept⟩, rfl, rfl, rfl, rfl, rfl, rfl, rfl⟩

/-- What INC and DEC say of their function's byte (spec/45_logic_shift_incdec.md R197, R198). -/
theorem modifies_of_exec {f : Byte → Byte} {m : MemOperand} (hmem : s.mem.wf = true)
    (h : exec i s = .next (s.modify f m)) (hresult : (f (s.readByte (s.ea m))).toNat = r) :
    Modifies i (s.ea m) r s := by
  obtain ⟨hwritten, hkept⟩ := writeByte_only hmem (s.ea m) (f (s.readByte (s.ea m)))
  have hread : (s.modify f m).readByte (s.ea m) = f (s.readByte (s.ea m)) := hwritten
  have hzn : ZNSay ((s.modify f m).readByte (s.ea m)) (s.modify f m) := by
    rw [hread]
    exact znSay_setZN _ _
  exact ⟨_, h, by rw [hread, hresult], hkept, hzn, flagsKeptBut_setZN (s.writeByte (s.ea m) _) _,
    rfl, rfl, rfl, rfl, rfl, rfl, rfl, rfl⟩

end Answers

/-! ### The family of logic, shifts, increments and decrements -/

/-- Settles O42: the answer sets A to the bit vector operation of A and the operand, which is bit by bit. -/
theorem logicIsBitwise : Obligations.LogicIsBitwise := by
  refine ⟨?and, ?ora, ?eor, fun op s =>
    ⟨fun hand => ⟨_, setsA_of_exec (handled_next.2 ⟨hand, rfl⟩), ?andBits⟩,
    fun hora => ⟨_, setsA_of_exec (handled_next.2 ⟨hora, rfl⟩), ?oraBits⟩,
    fun heor => ⟨_, setsA_of_exec (handled_next.2 ⟨heor, rfl⟩), ?eorBits⟩⟩⟩
  case andBits => exact fun k _ => BitVec.getLsbD_and
  case oraBits => exact fun k _ => BitVec.getLsbD_or
  case eorBits => exact fun k _ => BitVec.getLsbD_xor
  all_goals exact hasOpcodes_of_modes_subset (by decide) (by decide)

/-- Settles O43: a shift of a supported operand answers its function's result and carry, said in numbers. -/
theorem shiftsMoveOneBitThroughCarry : Obligations.ShiftsMoveOneBitThroughCarry := by
  refine ⟨?asl, ?lsr, ?rol, ?ror, fun op s hmem => ?shifts⟩
  case shifts =>
    rw [shifted_eq, carryIn_eq]
    exact ⟨fun hasl => shiftsTo_of_exec hmem (handled_next.2 ⟨hasl, rfl⟩) (asl8_result _ _) (getLsbD_seven_iff _),
      fun hlsr => shiftsTo_of_exec hmem (handled_next.2 ⟨hlsr, rfl⟩) (lsr8_result _ _) (getLsbD_zero_iff _),
      fun hrol => shiftsTo_of_exec hmem (handled_next.2 ⟨hrol, rfl⟩) (rol8_result _ _) (getLsbD_seven_iff _),
      fun hror => shiftsTo_of_exec hmem (handled_next.2 ⟨hror, rfl⟩) (ror8_result _ _) (getLsbD_zero_iff _)⟩
  all_goals exact hasOpcodes_of_modes_subset (by decide) (by decide)

/-- Settles O44: the answer writes INC8 or DEC8 of the byte back to the address it was read at. -/
theorem incDecChangeOneByte : Obligations.IncDecChangeOneByte := by
  refine ⟨?inc, ?dec, fun m s hmem =>
    ⟨fun hinc => modifies_of_exec hmem (handled_next.2 ⟨hinc, rfl⟩) (inc8_toNat _),
      fun hdec => modifies_of_exec hmem (handled_next.2 ⟨hdec, rfl⟩) (dec8_toNat _)⟩⟩
  all_goals exact hasOpcodes_of_modes_subset (by decide) (by decide)

/-- Settles O45: the answer sets the register to INC8 or DEC8 of what it held. -/
theorem registerIncrementsWrap : Obligations.RegisterIncrementsWrap := by
  refine ⟨?inx, ?iny, ?dex, ?dey, fun s => ⟨⟨inc8 s.x, inc8_toNat _, setsX_of_exec rfl⟩,
    ⟨inc8 s.y, inc8_toNat _, setsY_of_exec rfl⟩, ⟨dec8 s.x, dec8_toNat _, setsX_of_exec rfl⟩,
    ⟨dec8 s.y, dec8_toNat _, setsY_of_exec rfl⟩⟩⟩
  all_goals exact hasOpcodes_of_modes_subset (by decide) (by decide)

end Sys2Proof.Claims

namespace Sys2Proof.Machine

/-! ### The stack in numbers -/

/-- An address is that of the stack byte of S exactly when its number is 256 + S (spec/10_state.md R27). -/
theorem stackAddress_eq_iff {sp : Byte} {k : Word} : stackAddress sp = k ↔ k.toNat = 256 + sp.toNat := by
  rw [BitVec.toNat_eq, stackAddress_toNat, eq_comm]

/-- A pull of a state with the MEMORY and S that a push left takes the pushed byte and brings S back; no other
part of that state matters (spec/46_stack.md R211). -/
theorem State.pull_of_push {s u : State} {v : Byte} (hs : s.mem.wf = true) (hmem : u.mem = (s.push v).mem)
    (hsp : u.sp = (s.push v).sp) : u.pulled = v ∧ u.pull.sp = s.sp := by
  refine ⟨?byte, ?sp⟩
  case byte =>
    have hsame : u.pulled = (s.push v).pulled := by
      unfold State.pulled State.readByte
      rw [hmem, hsp]
    rw [hsame, State.pulled_push hs]
  case sp => rw [State.pull_sp, hsp, State.push_sp, inc8_dec8]

/-! ### The masks of PHP and PLP -/

/-- PLP keeps a flag whose bit is set in PLP_KEEP_MASK and takes any other from the pulled byte
(spec/46_stack.md R215). -/
theorem getFlag_pulledP (s : State) (f : Flag) :
    getFlag s.pulledP f = if getFlag s.params.plpKeepMask f = true then s.flag f else getFlag s.pulled f := by
  have hones : getFlag 0xFF f = true := by cases f <;> rfl
  unfold getFlag at hones
  unfold State.pulledP State.flag getFlag
  rw [BitVec.getLsbD_or, BitVec.getLsbD_and, BitVec.getLsbD_and, BitVec.getLsbD_xor, hones]
  cases s.params.plpKeepMask.getLsbD f.bit <;> simp

theorem State.pulledP_of_keepMask_zero {s : State} (h : s.params.plpKeepMask = 0x00) : s.pulledP = s.pulled := by
  refine flags_ext fun f => ?_
  have hzero : getFlag s.params.plpKeepMask f = false := by rw [h]; exact BitVec.getLsbD_zero
  rw [getFlag_pulledP, hzero, if_neg Bool.false_ne_true]

theorem State.pushedP_of_orMask_zero {s : State} (h : s.params.phpOrMask = 0x00) : s.pushedP = s.p := by
  rw [State.pushedP, h]
  exact BitVec.or_zero

end Sys2Proof.Machine

namespace Sys2Proof.Claims

open Sys2Proof.Machine

/-- What a push says of its byte (spec/46_stack.md R210). -/
theorem pushes_of_exec {i : Instr} {v : Byte} {s : State} (hs : s.mem.wf = true)
    (h : exec i s = .next (s.push v)) : Pushes i v s := by
  refine ⟨_, h, fun k hk => ?written, fun k hk => ?kept, mask8_toNat _, rfl, rfl, rfl, rfl, rfl, rfl, rfl, rfl⟩
  case written => rw [State.readByte_push hs, if_pos (stackAddress_eq_iff.2 hk)]
  case kept => rw [State.readByte_push hs, if_neg (mt stackAddress_eq_iff.1 hk)]

/-- The byte a pull takes stands at the address whose number is 256 + the incremented S
(spec/46_stack.md R211). -/
theorem pulled_eq_readByte {s : State} {k : Word} (hk : k.toNat = 256 + (s.sp.toNat + 1) % 256) :
    s.pulled = s.readByte k := by
  rw [← inc8_toNat] at hk
  rw [State.pulled, stackAddress_eq_iff.2 hk]

/-! ### The family of the stack -/

/-- Settles O46: the answer is the state after the push of A, or of P with the mask or-ed in. -/
theorem pushesWriteAtTheStackPointer : Obligations.PushesWriteAtTheStackPointer := by
  refine ⟨?pha, ?php, fun s hs => ⟨pushes_of_exec hs rfl, pushes_of_exec hs rfl⟩⟩
  all_goals exact hasOpcodes_of_modes_subset (by decide) (by decide)

/-- Settles O47: the answer is the state after the pull, with A and SetZN or P from the pulled byte. -/
theorem pullsReadAtTheIncrementedStackPointer : Obligations.PullsReadAtTheIncrementedStackPointer := by
  refine ⟨?pla, ?plp, fun s k hk => ?pulls⟩
  case pulls =>
    rw [← pulled_eq_readByte hk]
    exact ⟨⟨_, rfl, inc8_toNat _, rfl, znSay_setZN _ _, flagsKeptBut_setZN (s.pull.setA s.pulled) _,
        rfl, rfl, rfl, fun _ => rfl, rfl, rfl, rfl⟩,
      ⟨_, rfl, inc8_toNat _, getFlag_pulledP s, rfl, rfl, rfl, rfl, fun _ => rfl, rfl, rfl, rfl⟩⟩
  all_goals exact hasOpcodes_of_modes_subset (by decide) (by decide)

/-- Settles O48: PLA sets A to the byte its pull takes, which is the A that PHA pushed. -/
theorem pullUndoesPush : Obligations.PullUndoesPush := by
  intro s t u v hs hpha hmem hsp hpla
  obtain rfl : s.push s.a = t := Host.Outcome.next.inj hpha
  obtain rfl : (u.pull.setA u.pulled).setZN u.pulled = v := Host.Outcome.next.inj hpla
  obtain ⟨hbyte, hback⟩ := State.pull_of_push hs hmem hsp
  exact ⟨hbyte, hback, hmem⟩

/-- Settles O49: PLP with no kept bit sets P to the byte its pull takes, which is the P that PHP pushed with no
bit added. -/
theorem plpUndoesPhp : Obligations.PlpUndoesPhp := by
  intro s t u v hs hor hkeep hphp hmem hsp hplp
  obtain rfl : s.push s.pushedP = t := Host.Outcome.next.inj hphp
  obtain rfl : u.pull.setP u.pulledP = v := Host.Outcome.next.inj hplp
  obtain ⟨hbyte, hback⟩ := State.pull_of_push hs hmem hsp
  have hp : u.pulledP = s.p := by
    rw [State.pulledP_of_keepMask_zero hkeep, hbyte, State.pushedP_of_orMask_zero hor]
  exact ⟨hp, hback, hmem⟩

end Sys2Proof.Claims

namespace Sys2Proof.Machine

/-! ### The answer of an unassigned opcode -/

/-- The handler of an unassigned entry is total, and of the changes a handler can make only the two of the
policy belong to its entry (spec/47_flags_nop.md R228). -/
theorem exec_unassigned {i : Instr} {b : Byte} (hentry : i.entry = .unassigned b) (s : State) :
    (s.params.unassignedPolicy = .nop1 ∧ exec i s = .next s) ∨
    (s.params.unassignedPolicy = .refuse ∧ exec i s = .next (s.endRun (.faulted .unassignedOpcode))) := by
  have hw : i.wellFormed = true := by rw [Instr.wellFormed, hentry]
  obtain ⟨t, ht⟩ := exec_answers hw s
  have heffect : Effect s (.unassigned b) t := hentry ▸ exec_effect ht
  cases heffect with
  | ignores _ policy => exact .inl ⟨policy, ht⟩
  | faults _ policy => exact .inr ⟨policy, ht⟩

end Sys2Proof.Machine

namespace Sys2Proof.Claims

open Sys2Proof.Machine

/-- Each flag instruction is the flag write of its row (spec/47_flags_nop.md R220 to R226). -/
theorem exec_flagOperation {e : Instr × Flag × Bool} (he : e ∈ flagOperations) (s : State) :
    exec e.1 s = .next (s.setFlag e.2.1 e.2.2) := by
  have hrows : flagOperations.map (fun e => exec e.1 s) =
      flagOperations.map (fun e => .next (s.setFlag e.2.1 e.2.2)) := rfl
  exact List.map_inj_left.1 hrows e he

/-! ### The family of flags, NOP, HLT and the unassigned opcodes -/

/-- Settles O52: the answer is the one of the policy in force, and the other policy is not. -/
theorem unassignedOpcodesFollowThePolicy : Obligations.UnassignedOpcodesFollowThePolicy := by
  intro i b s hentry
  refine ⟨mem_unassignedBytes hentry, ?_⟩
  obtain ⟨hpolicy, hexec⟩ | ⟨hpolicy, hexec⟩ := exec_unassigned hentry s
  · exact ⟨fun _ => hexec, (nomatch hpolicy.symm.trans ·)⟩
  · exact ⟨(nomatch hpolicy.symm.trans ·), fun _ => hexec⟩

/-- Settles O50: the answer is one flag write, which keeps the other bits of P and every other part of the
state. -/
theorem flagOperationsWriteOneBit : Obligations.FlagOperationsWriteOneBit := by
  refine ⟨?clc, ?sec, ?cli, ?sei, ?cld, ?sed, ?clv, fun e he s => ⟨_, exec_flagOperation he s, ?writes⟩⟩
  case writes =>
    obtain ⟨hwritten, hkept, -, hpc, hmem, hcontrol⟩ := setFlag_only s e.2.1 e.2.2
    exact ⟨hwritten, hkept, rfl, rfl, rfl, rfl, hpc, hmem, hcontrol⟩
  all_goals exact hasOpcodes_of_modes_subset (by decide) (by decide)

/-- Settles O51: the handler of NOP answers its state, and that of HLT its state with the run ended. -/
theorem nopAndHltEffects : Obligations.NopAndHltEffects :=
  fun _ => ⟨rfl, rfl⟩

end Sys2Proof.Claims

namespace Sys2Proof.Machine

/-! ### PC after a branch -/

section Branch

variable {s : State} {cond : Bool}

/-- The target of a taken branch, in numbers (spec/48_branches.md R235, spec/10_state.md R25). -/
theorem State.branch_pc_taken (h : cond = true) (d : Byte) :
    ((s.branch cond d).pc.toNat : Int) = (s.pc.toNat + d.toInt) % 65536 := by
  rw [State.branch_eq, State.setPc_pc, if_pos h, mask16_toNat, signed8_eq_toInt]

theorem State.branch_pc_notTaken (h : cond = false) (d : Byte) : (s.branch cond d).pc = s.pc := by
  rw [h]
  rfl

end Branch

end Sys2Proof.Machine

namespace Sys2Proof.Claims

open Sys2Proof.Machine

/-- A branch changes PC alone, taken or not (spec/48_branches.md R235). -/
theorem branch_frame (s : State) (cond : Bool) (d : Byte) :
    (s.branch cond d).a = s.a ∧ (s.branch cond d).x = s.x ∧ (s.branch cond d).y = s.y ∧
    (s.branch cond d).sp = s.sp ∧ (s.branch cond d).p = s.p ∧ MemKept s (s.branch cond d) ∧
    ControlKept s (s.branch cond d) := by
  rw [State.branch_eq]
  exact ⟨rfl, rfl, rfl, rfl, rfl, fun _ => rfl, rfl, rfl, rfl⟩

section Branches

variable {e : (Byte → Instr) × Flag × Bool} (he : e ∈ branches)
include he

/-- Each branch is Branch on whether its flag has its value (spec/48_branches.md R236 to R243). -/
theorem exec_branch (d : Byte) (s : State) :
    exec (e.1 d) s = .next (s.branch (s.flag e.2.1 == e.2.2) d) := by
  have hrows : branches.map (fun e => exec (e.1 d) s) =
      branches.map (fun e => .next (s.branch (s.flag e.2.1 == e.2.2) d)) := by
    simp only [branches, List.map_cons, List.map_nil, beq_true, beq_false]
    rfl
  exact List.map_inj_left.1 hrows e he

/-- A branch is its opcode byte and its displacement byte (spec/30_encoding.md R79). -/
theorem length_branch (d : Byte) : (e.1 d).length = 2 := by
  have hrows : branches.map (fun e => (e.1 d).length) = branches.map (fun _ => 2) := rfl
  exact List.map_inj_left.1 hrows e he

/-- The step of a branch adds the advance of 2 to what Branch leaves in PC (spec/48_branches.md R235). -/
theorem step_branch {d : Byte} {s : State} {rest : List Byte} (hr : s.run = .running)
    (hd : decode s.stream = .ok (e.1 d, rest)) :
    step s = .next ((s.branch (s.flag e.2.1 == e.2.2) d).addPc 2) := by
  obtain ⟨-, -, -, -, -, -, hrun, -, -⟩ := branch_frame s (s.flag e.2.1 == e.2.2) d
  rw [step_of_decode hr hd (exec_branch he d s), length_branch he, State.advance_running (hrun.trans hr)]
  rfl

end Branches

/-! ### The family of branches, and the steps of a RUNNING core -/

/-- Settles O53: the answer is Branch on the row's flag and value, which writes PC alone. -/
theorem branchesAddTheDisplacementWhenTaken : Obligations.BranchesAddTheDisplacementWhenTaken := by
  refine ⟨?bcc, ?bcs, ?beq, ?bne, ?bmi, ?bpl, ?bvc, ?bvs, fun e he d s => ⟨_, exec_branch he d s,
    fun htaken => State.branch_pc_taken (beq_iff_eq.2 htaken) d,
    fun hnot => State.branch_pc_notTaken (beq_eq_false_iff_ne.2 hnot) d, branch_frame s _ d⟩⟩
  all_goals exact hasOpcodes_of_modes_subset (by decide) (by decide)

/-- Settles O54: the advance of 2 is added, modulo 65536, to the PC that Branch leaves. -/
theorem branchStepTargetsTheNextInstruction : Obligations.BranchStepTargetsTheNextInstruction := by
  intro e he d s rest hr hd
  refine ⟨_, step_branch he hr hd, fun htaken => ?taken, fun hnot => ?notTaken, branch_frame s _ d⟩
  case taken =>
    have htarget := State.branch_pc_taken (s := s) (beq_iff_eq.2 htaken) d
    rw [State.addPc_pc, mask16_toNat, htarget]
    omega
  case notTaken =>
    have hadvanced := mask16_toNat (s.pc.toNat + 2)
    rw [State.addPc_pc, State.branch_pc_notTaken (beq_eq_false_iff_ne.2 hnot)]
    omega

/-- Settles O13: the end of the stream and a truncated instruction end the run, and whatever decodes has a
handler. -/
theorem runningCoreAlwaysSteps : Obligations.RunningCoreAlwaysSteps :=
  fun _ hr => step_answers hr

end Sys2Proof.Claims
